-- ==== Sys2Proof/Word.lean ====
section
/-! DEFINITION. The widths of the engine's values (rules R13, R20, R53) and the level and the
mode of its pin, whose codes (rule R67) are in Decode.lean. -/

namespace Sys2Proof

/-- A 64-bit clock value: `NowTicks`, `NowMillis`, `TicksPerSecond`, a duration (R9 `W_TICK`). -/
abbrev Word64 := BitVec 64

/-- A 32-bit host value: `max_retries`, `ATTEMPT`, `MAXR`, `retryCount` (R10 `W_INT`). -/
abbrev Word32 := BitVec 32

/-- A count of tenths of a percent or of a degree (R34). -/
abbrev Tenths := BitVec 12

/-- One byte field of the frame (R9 `FIELD_BITS`). -/
abbrev Byte := BitVec 8

/-- The 40 bits of a frame (R9 `FRAME_BITS`). -/
abbrev FrameWord := BitVec 40

/-- The level of the line (R67); its code is `Level.code`. -/
inductive Level where
  | low
  | high
  deriving DecidableEq, Repr, Inhabited

/-- The drive mode of the pin (R67); its code is `PinMode.code`. -/
inductive PinMode where
  | input
  | output
  deriving DecidableEq, Repr, Inhabited

end Sys2Proof
end

