-- ==== Sys2Proof/Syntax.lean ====
section
/-! DEFINITION. The syntax of the engine: the states of `ST`, the records the operations pass, the
formats, and `Instr`, one constructor per row of spec/opcode_table.json. -/

namespace Sys2Proof

/-- The value of the 3-bit register `ST` (R21, R65); the codes 6 and 7 name no state (R66). The
codes themselves are `St.code` and `St.ofCode` in Decode.lean. -/
inductive St where
  | idle
  | signalingReset
  | awaitingResponse
  | capturingBits
  | success
  | timedOut
  | reserved6
  | reserved7
  deriving DecidableEq, Repr, Inhabited

/-- The five byte fields of a frame, in wire order (R63, R110). -/
structure Fields where
  humidityInt : Byte
  humidityFrac : Byte
  temperatureInt : Byte
  temperatureFrac : Byte
  checksum : Byte
  deriving DecidableEq, Repr, Inhabited

/-- A reading record: the Reading without its `retryCount` (42_checksum_convert.md preamble). -/
structure ReadingRecord where
  timedOut : Bool
  isValid : Bool
  humTenths : Tenths
  tempTenths : Tenths
  deriving DecidableEq, Repr, Inhabited

/-- The Reading, as the five output signals of format `RD` carry it (R34, R68). -/
structure Reading where
  timedOut : Bool
  isValid : Bool
  humTenths : Tenths
  tempTenths : Tenths
  retryCount : Word32
  deriving DecidableEq, Repr, Inhabited

/-- The operations, the reserved codes, the pseudo-operation, the procedures, the combinational
functions and the data formats: one constructor per row of the opcode table (R65, R75). -/
inductive Instr where
  /-- `IDLE` (R120): `ST` = Idle, `start` = 0. -/
  | idle
  /-- `GETREADING` (R121): `ST` = Idle, `start` = 1; its operand is the input `max_retries`. -/
  | getreading
  /-- `HOLD` (R83). -/
  | hold
  /-- `AWAIT` (R84). -/
  | await
  /-- `CAPTURE` (R85). -/
  | capture
  /-- `RETIRE_S` (R86). -/
  | retireS
  /-- `RETIRE_T` (R87). -/
  | retireT
  /-- `RESERVED_ST6_ST7` (R66): code 6 for `bit0 = false`, code 7 for `bit0 = true`. -/
  | reserved (bit0 : Bool)
  /-- `GETREADING_DEFAULT` (R74): the command word with `max_retries` = 20. -/
  | getreadingDefault
  /-- `BEGIN_ATTEMPT` (R82). -/
  | beginAttempt
  /-- `RETIRE` (R123) of a reading record. -/
  | retire (rd : ReadingRecord)
  /-- `THRESH` (R100). -/
  | thresh (tps : Word64)
  /-- `DURATION` (R101). -/
  | duration (now prev : Word64)
  /-- `DECODEBIT` (R102). -/
  | decodebit (d threshold : Word64)
  /-- `SHIFTIN` (R103); `i` has the width of `EDGE_CNT`. -/
  | shiftin (frame : FrameWord) (i : BitVec 6) (b : Bool)
  /-- `FIELDS` (R110). -/
  | fields (frame : FrameWord)
  /-- `CHKSUM` (R111). -/
  | chksum (hI hF tI tF ck : Byte)
  /-- `CONVERT` (R112). -/
  | convert (hI hF tI tF : Byte)
  /-- `READING_OF_FRAME` (R113). -/
  | readingOfFrame (frame : FrameWord)
  /-- `READING_OF_TIMEOUT` (R115). -/
  | readingOfTimeout
  /-- A word of format `F40` (R63), by its five fields in wire order. -/
  | f40 (h g t u c : Byte)
  /-- A word of format `CMD` (R64): `start` = 1 with the operand `n`. -/
  | cmd (n : Word32)
  /-- The signals of format `RD` (R68), which the engine drives and the host reads. -/
  | rd
  deriving DecidableEq, Repr

/-- The bits of one encoded word, with the wires it stands on (R60): the dispatch word
`start ++ ST`, the host's command word, a frame on the line, the Reading signals. -/
inductive Code where
  | st3 (w : BitVec 4)
  | cmd (w : BitVec 33)
  | f40 (w : FrameWord)
  | rd (w : BitVec 58)
  deriving DecidableEq, Repr

/-- Why a word decodes to no instruction. -/
inductive DecodeError where
  /-- A `CMD` word with `start` = 0: "no command" (R64). -/
  | noCommand
  deriving DecidableEq, Repr

end Sys2Proof
end

