-- ==== Sys2Proof/WellFormed.lean ====
section
/-! DEFINITION. Which operands the spec admits: the edge number of SHIFTIN (R103), the operand of a
command (R32, R64), the reading record of RETIRE (R31, R34). Every other operand is unrestricted. -/

namespace Sys2Proof

/-- The edge number closes a duration: 1 ≤ `i` ≤ 40 (R103). -/
def edgeNumberOk (i : BitVec 6) : Bool := decide (1 ≤ i.toNat ∧ i.toNat ≤ 40)

/-- A legal `max_retries`: 1 to 2^31 − 1, that is positive as a two's-complement number (R32, R69e). -/
def budgetOk (n : Word32) : Bool := decide (0 < n.toInt)

/-- A reading record an attempt can produce: never timed out and valid at once (R31), both values
zero when not valid (R34), no value above 2805 (R112). -/
def recordOk (rd : ReadingRecord) : Bool :=
  !(rd.timedOut && rd.isValid) &&
    (rd.isValid || (rd.humTenths == 0#12 && rd.tempTenths == 0#12)) &&
    decide (rd.humTenths.toNat ≤ 2805 ∧ rd.tempTenths.toNat ≤ 2805)

/-- Whether an instruction's operands are ones the spec admits. -/
def Instr.wellFormed : Instr → Bool
  | .idle => true
  | .getreading => true
  | .hold => true
  | .await => true
  | .capture => true
  | .retireS => true
  | .retireT => true
  | .reserved _ => true
  | .getreadingDefault => true
  | .beginAttempt => true
  | .retire r => recordOk r
  | .thresh _ => true
  | .duration _ _ => true
  | .decodebit _ _ => true
  | .shiftin _ i _ => edgeNumberOk i
  | .fields _ => true
  | .chksum _ _ _ _ _ => true
  | .convert _ _ _ _ => true
  | .readingOfFrame _ => true
  | .readingOfTimeout => true
  | .f40 _ _ _ _ _ => true
  | .cmd n => budgetOk n
  | .rd => true

end Sys2Proof
end

