-- ==== Sys2Proof/Decode.lean ====
section
/-! DEFINITION. The codes of `ST` (R65, R66), of a level and of a pin mode (R67), the decoder of every format (R60 to R68, R75), and
after it the encoder, written from the same tables. -/

namespace Sys2Proof

/-! ## The code of the state register -/

/-- The 3-bit code of `ST` (R65). -/
def St.code : St → BitVec 3
  | .idle => 0#3
  | .signalingReset => 1#3
  | .awaitingResponse => 2#3
  | .capturingBits => 3#3
  | .success => 4#3
  | .timedOut => 5#3
  | .reserved6 => 6#3
  | .reserved7 => 7#3

/-- The state a 3-bit code names (R65, R66). -/
def St.ofCode (c : BitVec 3) : St :=
  if c = 0#3 then .idle
  else if c = 1#3 then .signalingReset
  else if c = 2#3 then .awaitingResponse
  else if c = 3#3 then .capturingBits
  else if c = 4#3 then .success
  else if c = 5#3 then .timedOut
  else if c = 6#3 then .reserved6
  else .reserved7

/-! ## The codes of the pin -/

/-- The level code on `s.lvl`, `PIN_OUT` and `PREV_LEVEL`: Low = 0, High = 1 (R67). -/
def Level.code : Level → BitVec 1
  | .low => 0#1
  | .high => 1#1

/-- The level a bit of the line stands for (R67). -/
def Level.ofCode (c : BitVec 1) : Level := if c = 0#1 then .low else .high

/-- The mode code on `PIN_MODE`: Input = 0, Output = 1 (R67). -/
def PinMode.code : PinMode → BitVec 1
  | .input => 0#1
  | .output => 1#1

/-- The drive mode a bit stands for (R67). -/
def PinMode.ofCode (c : BitVec 1) : PinMode := if c = 0#1 then .input else .output

/-! ## The dispatch word -/

/-- The dispatch word of a step: `start` in bit 3, `ST` in bits 2:0 (R75). -/
def dispatchWord (start : Bool) (st : St) : BitVec 4 := BitVec.ofBool start ++ st.code

/-! ## Decoding -/

/-- The operation a dispatch word selects (R65). For `ST` ≠ 0 the `start` bit is not part of the
match (R75); the step refuses it there (R122). -/
def decodeSt3 (w : BitVec 4) : Instr :=
  match St.ofCode (w.extractLsb' 0 3) with
  | .idle => if w.getLsbD 3 then .getreading else .idle
  | .signalingReset => .hold
  | .awaitingResponse => .await
  | .capturingBits => .capture
  | .success => .retireS
  | .timedOut => .retireT
  | .reserved6 => .reserved false
  | .reserved7 => .reserved true

/-- The operand of `GETREADING_DEFAULT` (R9 `DEFAULT_MAX_RETRIES`, R74). -/
def defaultMaxRetries : Word32 := 20#32

/-- A command word, `start` in bit 32 and `max_retries` in bits 31:0 (R64). The word of the row
GETREADING_DEFAULT is read as that row; the engine cannot tell it from CMD 20 (R74). -/
def decodeCmd (w : BitVec 33) : Except DecodeError Instr :=
  if w.getLsbD 32 then
    if w.extractLsb' 0 32 = defaultMaxRetries then .ok .getreadingDefault
    else .ok (.cmd (w.extractLsb' 0 32))
  else .error .noCommand

/-- A frame word by its fields (R63). -/
def decodeF40 (w : FrameWord) : Instr :=
  .f40 (w.extractLsb' 32 8) (w.extractLsb' 24 8) (w.extractLsb' 16 8) (w.extractLsb' 8 8)
    (w.extractLsb' 0 8)

/-- The decoder: total on every word of every format, rejecting by name. A word of the RD signals
is the engine's output: its bits are the Reading (`readingOfRdWord`), no operands. -/
def decode : Code → Except DecodeError Instr
  | .st3 w => .ok (decodeSt3 w)
  | .cmd w => decodeCmd w
  | .f40 w => .ok (decodeF40 w)
  | .rd _ => .ok .rd

/-- The Reading that an RD word carries: the five signals in the order of R68. -/
def readingOfRdWord (w : BitVec 58) : Reading where
  timedOut := w.getLsbD 57
  isValid := w.getLsbD 56
  humTenths := w.extractLsb' 44 12
  tempTenths := w.extractLsb' 32 12
  retryCount := w.extractLsb' 0 32

/-! ## Encoding -/

/-- The RD word of a Reading: the five signals in the order of R68, the first in the highest bits. -/
def rdWordOfReading (r : Reading) : BitVec 58 :=
  ((BitVec.ofBool r.timedOut).setWidth 58 <<< 57) ||| ((BitVec.ofBool r.isValid).setWidth 58 <<< 56) |||
    (r.humTenths.setWidth 58 <<< 44) ||| (r.tempTenths.setWidth 58 <<< 32) |||
    r.retryCount.setWidth 58

/-- The frame word of five fields, the first byte on the wire in bits 39:32 (R63). -/
def frameOfFields (h g t u c : Byte) : FrameWord :=
  (h.setWidth 40 <<< 32) ||| (g.setWidth 40 <<< 24) ||| (t.setWidth 40 <<< 16) |||
    (u.setWidth 40 <<< 8) ||| c.setWidth 40

/-- The command word of an operand, `start` = 1 in bit 32 (R64). -/
def cmdWord (n : Word32) : BitVec 33 := (1#33 <<< 32) ||| n.setWidth 33

/-- The word of an instruction, where the spec gives it one: a procedure or a combinational function
is selected by no bits (R65, R75), and the bits of the RD signals come from the registers. -/
def encode : Instr → Option Code
  | .idle => some (.st3 0x0#4)
  | .getreading => some (.st3 0x8#4)
  | .hold => some (.st3 0x1#4)
  | .await => some (.st3 0x2#4)
  | .capture => some (.st3 0x3#4)
  | .retireS => some (.st3 0x4#4)
  | .retireT => some (.st3 0x5#4)
  | .reserved b => some (.st3 (0b011#3 ++ BitVec.ofBool b))
  | .getreadingDefault => some (.cmd (cmdWord defaultMaxRetries))
  | .beginAttempt => none
  | .retire _ => none
  | .thresh _ => none
  | .duration _ _ => none
  | .decodebit _ _ => none
  | .shiftin _ _ _ => none
  | .fields _ => none
  | .chksum _ _ _ _ _ => none
  | .convert _ _ _ _ => none
  | .readingOfFrame _ => none
  | .readingOfTimeout => none
  | .f40 h g t u c => some (.f40 (frameOfFields h g t u c))
  | .cmd n => some (.cmd (cmdWord n))
  | .rd => none

/-- The spelling the decoder gives back: CMD 20 is spelled GETREADING_DEFAULT, which the engine
cannot tell from it (R74); every other instruction is its own spelling. -/
def Instr.canonical : Instr → Instr
  | .cmd n => if n = defaultMaxRetries then .getreadingDefault else .cmd n
  | i => i

/-! ## The host's numbering of a table row's bits -/

/-- Which format a word of `nbits` bits, in whole bytes, is read in: up to 8 bits a dispatch word
(4 bits, the higher ones 0), 33 to 40 bits a command word when its bits from 32 up are 1 and a frame
word otherwise, 58 to 64 bits an RD word. -/
def codeOfTableWord (nbits w : Nat) : Option Code :=
  if nbits = 0 then none
  else if nbits ≤ 8 then
    if w < 2 ^ 4 then some (.st3 (BitVec.ofNat 4 w)) else none
  else if 33 ≤ nbits ∧ nbits ≤ 40 then
    if w / 2 ^ 32 = 1 then some (.cmd (BitVec.ofNat 33 w))
    else if w < 2 ^ 40 then some (.f40 (BitVec.ofNat 40 w))
    else none
  else if 58 ≤ nbits ∧ nbits ≤ 64 then
    if w < 2 ^ 58 then some (.rd (BitVec.ofNat 58 w)) else none
  else none

/-- The instruction the decoder reads from a table word. A procedure or a combinational function is
selected by no bits (R65), so no word decodes to one. -/
def decodeTableWord (nbits w : Nat) : Option Instr :=
  match codeOfTableWord nbits w with
  | some c =>
    match decode c with
    | .ok i => some i
    | .error _ => none
  | none => none

end Sys2Proof
end

