-- ==== Sys2Proof/Config.lean ====
section
/-! DEFINITION. What is fixed for the machine (R9, R10), the inputs of one step (R32, R41, R160),
and the free values of the model. -/

namespace Sys2Proof

/-! ## Parameters -/

/-- `CUTOFF_US`: microseconds between a `0` pulse and a `1` pulse (R9). -/
def Config.cutoffUs : Nat := 110

/-- `US_PER_S`: the divisor of the threshold formula (R9). -/
def Config.usPerS : Nat := 1000000

/-- Half the divisor: what "round half up" adds before the floor (R10 `ROUND`, R100). -/
def Config.halfUsPerS : Nat := 500000

/-- `T_HOLD_MS`: the reset pulse (R10). UNVERIFIED (log 12): the spec's value for this hardware. -/
def Config.tHoldMs : Word64 := 18#64

/-- `T_RESPONSE_MS`: the response window (R10). UNVERIFIED (log 12). -/
def Config.tResponseMs : Word64 := 1#64

/-- `T_CAPTURE_MS`: the capture window (R10). UNVERIFIED (log 12). -/
def Config.tCaptureMs : Word64 := 10#64

/-! ## The inputs of one step -/

/-- The input sample of a step: the answers of `PinRead`, `NowTicks`, `NowMillis` and
`TicksPerSecond` in that step (R41). -/
structure Sample where
  lvl : Level
  ticks : Word64
  millis : Word64
  tps : Word64
  deriving DecidableEq, Repr, Inhabited

/-- Everything a step reads from outside the engine: the sample (R41), the host's signals (R32) and
the reset input (R160). -/
structure Input where
  sample : Sample
  start : Bool
  maxRetries : Word32
  rst : Bool
  deriving DecidableEq, Repr, Inhabited

/-! ## Free values -/

/-- DESIGN CHOICE (log 2): the inputs of the `n`-th step for which no input was fixed beforehand.
The spec makes them free inputs (R38, R42); nothing constrains them, not the clock laws either. -/
opaque Config.freeInput : Nat → Input

/-- DESIGN CHOICE (log 8): SHIFTIN for an edge number outside 1 to 40, which never occurs (R103) and
for which the spec states no result. -/
opaque Config.shiftInOutside : FrameWord → BitVec 6 → Bool → FrameWord

/-- DESIGN CHOICE (log 9): what EDGE_CNT holds after 63 is incremented; never occurs (R23), and the
spec states no result (R13). -/
opaque Config.edgeCntAfterMax : BitVec 6

/-- DESIGN CHOICE (log 9): what ATTEMPT holds after 2^32 − 1 is incremented; never occurs (R28), and
the spec states no result (R13). -/
opaque Config.attemptAfterMax : Word32

end Sys2Proof
end

