-- ==== Sys2Proof/Machine/State.lean ====
section
/-! DEFINITION. The state of the machine: the engine's registers (R20), the inputs of the coming
step (R38), and the model's own fields; the reasons a step can stop; the state after reset (R39). -/

namespace Sys2Proof.Machine

/-- The reasons a step can fault: none. No operation of the engine raises anything (R16, R135). -/
inductive Fault where
  deriving DecidableEq, Repr

/-- The reasons a step is refused: the cases to which the spec says a model must give no meaning
(R16). Each is safe: the model stops where an implementation might go on. -/
inductive Refusal where
  /-- Raised by `exec` alone, for an instruction that has no meaning yet. Safe. -/
  | notModelled (mnemonic : String)
  /-- Raised by RESERVED_ST6_ST7: `ST` holds 6 or 7 (R66, U1). Safe: unreachable. -/
  | reservedState
  /-- Raised by a step with `start` = 1 while `ST` ≠ Idle, and by GETREADING or a command word
  there (R122 item 2, U3). Safe. -/
  | commandWhileBusy
  /-- Raised by GETREADING or a command word with `max_retries` ≤ 0 (R122 item 1, U2). Safe. -/
  | budgetNotPositive
  /-- Raised by an operation that begins an attempt with `TicksPerSecond` = 0 (R46, R82, U6). Safe. -/
  | clockUnavailable
  deriving DecidableEq, Repr

/-- What a combinational row executed by itself gives, kept where it can be seen. DESIGN CHOICE
(log 4): the spec's functions write no register; the caller does the writing. -/
inductive FuncResult where
  /-- No combinational row has been executed. -/
  | none
  /-- A number of ticks: THRESH, DURATION. -/
  | ticks (v : Word64)
  /-- One bit: DECODEBIT, CHKSUM. -/
  | bit (b : Bool)
  /-- A frame: SHIFTIN. -/
  | frame (f : FrameWord)
  /-- Five fields: FIELDS. -/
  | fields (f : Fields)
  /-- Two counts of tenths: CONVERT. -/
  | tenths (hum temp : Tenths)
  /-- A reading record: READING_OF_FRAME, READING_OF_TIMEOUT, an F40 word. -/
  | record (rd : ReadingRecord)
  /-- The Reading on the RD signals: RD. -/
  | reading (r : Reading)
  deriving DecidableEq, Repr

/-- The engine's whole state, register by register as R20 lists it. -/
structure Engine where
  /-- `ST` (R21). -/
  st : St
  /-- `FRAME` (R22). -/
  frame : FrameWord
  /-- `EDGE_CNT` (R23). -/
  edgeCnt : BitVec 6
  /-- `PREV_LEVEL` (R24). -/
  prevLevel : Level
  /-- `PREV_TIME` (R25). -/
  prevTime : Word64
  /-- `DEADLINE` (R26). -/
  deadline : Word64
  /-- `THRESHOLD` (R27). -/
  threshold : Word64
  /-- `ATTEMPT` (R28). -/
  attempt : Word32
  /-- `MAXR` (R29). -/
  maxr : Word32
  /-- `PIN_MODE` (R30). -/
  pinMode : PinMode
  /-- `PIN_OUT` (R30). -/
  pinOut : Level
  /-- `DONE` (R33). -/
  done : Bool
  /-- `RD_TIMED_OUT` (R31). -/
  rdTimedOut : Bool
  /-- `RD_IS_VALID` (R31). -/
  rdIsValid : Bool
  /-- `RD_HUM_TENTHS` (R34). -/
  rdHumTenths : Tenths
  /-- `RD_TEMP_TENTHS` (R34). -/
  rdTempTenths : Tenths
  /-- `RD_RETRY_COUNT` (R34). -/
  rdRetryCount : Word32
  deriving DecidableEq, Repr

/-- The machine: the engine, the inputs its coming step reads, and the model's own bookkeeping. -/
structure State where
  /-- The engine's registers (R20). -/
  eng : Engine
  /-- The sample and the host inputs of the coming step (R32, R41; log 1). -/
  inp : Input
  /-- The inputs already fixed for the steps after it, oldest first (log 2). -/
  script : List Input
  /-- The number of the coming step, which numbers the free inputs (log 2). -/
  stepNo : Nat
  /-- The result of the last combinational row executed by itself (log 4). -/
  result : FuncResult
  deriving DecidableEq, Repr

/-- The reset value of every register (R39). -/
def Engine.reset : Engine where
  st := .idle
  frame := 0#40
  edgeCnt := 0#6
  prevLevel := .high
  prevTime := 0#64
  deadline := 0#64
  threshold := 0#64
  attempt := 0#32
  maxr := 0#32
  pinMode := .input
  pinOut := .low
  done := false
  rdTimedOut := false
  rdIsValid := false
  rdHumTenths := 0#12
  rdTempTenths := 0#12
  rdRetryCount := 0#32

/-- DESIGN CHOICE (log 3): the inputs presented to the first step: a released line, clocks at 0, a
microsecond tick counter, no command, the default budget on `max_retries`. -/
def Input.reset : Input where
  sample := { lvl := .high, ticks := 0#64, millis := 0#64, tps := 1000000#64 }
  start := false
  maxRetries := 20#32
  rst := false

/-- The machine right after reset: every register as R39 says; the model's own fields as log entry 3
says. -/
def State.reset : State where
  eng := Engine.reset
  inp := Input.reset
  script := []
  stepNo := 0
  result := .none

end Sys2Proof.Machine
end

