-- ==== Sys2Proof/Machine/Operands.lean ====
section
/-! DEFINITION. The operands of the operations: the port primitives (R15, R42 to R47), the
combinational functions of the frame decoder (R100 to R103), the split of a frame and its physical
values (R110, R112). -/

namespace Sys2Proof.Machine

/-! ## The read primitives of a step -/

/-- `PinRead()` (R42). -/
def pinRead (x : Input) : Level := x.sample.lvl

/-- `NowTicks()` (R45). -/
def nowTicks (x : Input) : Word64 := x.sample.ticks

/-- `NowMillis()` (R47). -/
def nowMillis (x : Input) : Word64 := x.sample.millis

/-- `TicksPerSecond()` (R46). -/
def ticksPerSecond (x : Input) : Word64 := x.sample.tps

/-! ## The pulse-width classifier and the frame decoder -/

/-- THRESH: 110 µs in ticks, rounded half up, over the integers (R100). -/
def thresh (tps : Word64) : Word64 :=
  BitVec.ofNat 64 ((Config.cutoffUs * tps.toNat + Config.halfUsPerS) / Config.usPerS)

/-- DURATION: the difference modulo 2^64 (R101). -/
def duration (now prev : Word64) : Word64 := now - prev

/-- DECODEBIT: strictly longer than the threshold, unsigned (R102). -/
def decodeBit (d threshold : Word64) : Bool := decide (d > threshold)

/-- A frame with the bit at position `p` set to `b`. -/
def setFrameBit (frame : FrameWord) (p : Nat) (b : Bool) : FrameWord :=
  if b then frame ||| (1#40 <<< p) else frame &&& ~~~(1#40 <<< p)

/-- SHIFTIN: bit `40 − i` of the frame set to `b` (R103). An edge number outside 1 to 40 has no
stated result: a free value (log 8). -/
def shiftIn (frame : FrameWord) (i : BitVec 6) (b : Bool) : FrameWord :=
  if edgeNumberOk i then setFrameBit frame (40 - i.toNat) b
  else Config.shiftInOutside frame i b

/-- EDGE_CNT + 1 in six bits; past 63 a free value (log 9). -/
def incEdge (e : BitVec 6) : BitVec 6 :=
  if e.toNat + 1 < 2 ^ 6 then e + 1#6 else Config.edgeCntAfterMax

/-- ATTEMPT + 1 in 32 bits; past 2^32 − 1 a free value (log 9). -/
def incAttempt (a : Word32) : Word32 :=
  if a.toNat + 1 < 2 ^ 32 then a + 1#32 else Config.attemptAfterMax

/-! ## The fields of a frame and the physical values -/

/-- FIELDS: the five bytes of a frame (R110). -/
def fields (frame : FrameWord) : Fields where
  humidityInt := frame.extractLsb' 32 8
  humidityFrac := frame.extractLsb' 24 8
  temperatureInt := frame.extractLsb' 16 8
  temperatureFrac := frame.extractLsb' 8 8
  checksum := frame.extractLsb' 0 8

/-- A physical value in tenths, `10 × Int + Frac` in 12 bits (R69c). -/
def tenthsOf (int frac : Byte) : Tenths := 10#12 * int.setWidth 12 + frac.setWidth 12

/-- CONVERT: humidity and temperature in tenths (R112). -/
def convert (hI hF tI tF : Byte) : Tenths × Tenths := (tenthsOf hI hF, tenthsOf tI tF)

/-- A deadline that lies `budget` counts after `m` (R88; the sum wraps, log 13). -/
def deadlineAfter (m budget : Word64) : Word64 := m + budget

/-- A wait is over in a step whose millisecond count is past the deadline, strictly (R88). -/
def deadlinePassed (x : Input) (deadline : Word64) : Bool := decide (nowMillis x > deadline)

end Sys2Proof.Machine
end

