-- ==== Sys2Proof/Machine/Flags.lean ====
section
/-! DEFINITION. The engine's two flags, `timedOut` and `isValid` (R31): the checksum rule that gives
`isValid` (R111), the two reading records (R113, R115), the outcome code the flags form (R136). -/

namespace Sys2Proof.Machine

/-- The checksum operand: the sum of the four data bytes in ten bits (R69b). -/
def byteSum (hI hF tI tF : Byte) : BitVec 10 :=
  hI.setWidth 10 + hF.setWidth 10 + tI.setWidth 10 + tF.setWidth 10

/-- CHKSUM: the checksum byte equals the low 8 bits of the sum (R111). -/
def chksum (hI hF tI tF ck : Byte) : Bool := ck == (byteSum hI hF tI tF).extractLsb' 0 8

/-- CHKSUM of a split frame. -/
def checksumOk (f : Fields) : Bool :=
  chksum f.humidityInt f.humidityFrac f.temperatureInt f.temperatureFrac f.checksum

/-- The reading record of five fields: the converted values when the checksum holds, else zeros; never
timed out (R113). -/
def recordOfFields (f : Fields) : ReadingRecord :=
  if checksumOk f then
    { timedOut := false
      isValid := true
      humTenths := (convert f.humidityInt f.humidityFrac f.temperatureInt f.temperatureFrac).1
      tempTenths := (convert f.humidityInt f.humidityFrac f.temperatureInt f.temperatureFrac).2 }
  else { timedOut := false, isValid := false, humTenths := 0#12, tempTenths := 0#12 }

/-- READING_OF_FRAME: the record of the frame's fields (R113). -/
def readingOfFrame (frame : FrameWord) : ReadingRecord := recordOfFields (fields frame)

/-- READING_OF_TIMEOUT: the constant record (R115). -/
def readingOfTimeout : ReadingRecord :=
  { timedOut := true, isValid := false, humTenths := 0#12, tempTenths := 0#12 }

/-- The pair (`RD_TIMED_OUT`, `RD_IS_VALID`): the block's cause code (R136). -/
def Engine.outcomeCode (e : Engine) : Bool × Bool := (e.rdTimedOut, e.rdIsValid)

end Sys2Proof.Machine
end

