-- ==== Sys2Proof/Machine/Ops.lean ====
section
/-! DEFINITION. The named operations over the registers: the pin writes, the host's output signals,
beginning an attempt (R82), retiring one (R123: the analogue of taking an exception, R144), reset
(R160), and what a step does around the operation it selects (R80). -/

namespace Sys2Proof.Machine

/-! ## The pin -/

/-- `PinMode(m)` (R43). -/
def Engine.setPinMode (e : Engine) (m : PinMode) : Engine := { e with pinMode := m }

/-- `PinWrite(v)` (R44). -/
def Engine.pinWrite (e : Engine) (v : Level) : Engine := { e with pinOut := v }

/-- The level the engine drives the line at; `none` while the line is released (R30, R43). -/
def Engine.lineDrive (e : Engine) : Option Level :=
  match e.pinMode with
  | .output => some e.pinOut
  | .input => none

/-! ## The pin's bits -/

/-- The bit the register `PIN_OUT` puts on the port (R30, R67). -/
def Engine.pinOutBit (e : Engine) : BitVec 1 := e.pinOut.code

/-- The bit the register `PIN_MODE` puts on the port (R30, R67). -/
def Engine.pinModeBit (e : Engine) : BitVec 1 := e.pinMode.code

/-- The bit the register `PREV_LEVEL` holds (R24, R67). -/
def Engine.prevLevelBit (e : Engine) : BitVec 1 := e.prevLevel.code

/-- The bit of the line that `PinRead()` answers with in a step with the inputs `x` (R41, R67). -/
def lvlBit (x : Input) : BitVec 1 := (pinRead x).code

/-! ## The host's output signals -/

/-- `busy`: `ST` ≠ Idle (R32). -/
def Engine.busy (e : Engine) : Bool := decide (e.st ≠ .idle)

/-- The five Reading registers as the RD signals carry them (R32, R68). -/
def Engine.reading (e : Engine) : Reading where
  timedOut := e.rdTimedOut
  isValid := e.rdIsValid
  humTenths := e.rdHumTenths
  tempTenths := e.rdTempTenths
  retryCount := e.rdRetryCount

/-- The RD word on the output signals (R68). -/
def Engine.rdWord (e : Engine) : BitVec 58 := rdWordOfReading e.reading

/-! ## Results -/

/-- An operation that changes registers only. -/
def nextEngine (s : State) (e : Engine) : Host.Outcome State Fault Refusal :=
  .next { s with eng := e }

/-- A combinational row executed by itself: its result is shown and no register changes (log 4). -/
def showResult (s : State) (r : FuncResult) : Host.Outcome State Fault Refusal :=
  .next { s with result := r }

/-! ## Beginning and retiring an attempt -/

/-- The register writes of BEGIN_ATTEMPT, in the order R82 lists them. -/
def Engine.startAttempt (e : Engine) (x : Input) : Engine :=
  let e := { e with
    frame := 0#40
    edgeCnt := 0#6
    prevTime := 0#64
    threshold := thresh (ticksPerSecond x) }
  let e := (e.pinWrite .low).setPinMode .output
  { e with
    deadline := deadlineAfter (nowMillis x) Config.tHoldMs
    st := .signalingReset }

/-- BEGIN_ATTEMPT with the step's sample (R82); `TicksPerSecond` = 0 is a refused precondition
failure (R46). -/
def beginAttempt (s : State) : Host.Outcome State Fault Refusal :=
  if ticksPerSecond s.inp = 0#64 then .refused .clockUnavailable
  else nextEngine s (s.eng.startAttempt s.inp)

/-- The writes every retirement makes: ATTEMPT, the four values of the record and the attempt's
1-based index (R123). -/
def Engine.recordAttempt (e : Engine) (rd : ReadingRecord) : Engine :=
  let a := incAttempt e.attempt
  { e with
    attempt := a
    rdTimedOut := rd.timedOut
    rdIsValid := rd.isValid
    rdHumTenths := rd.humTenths
    rdTempTenths := rd.tempTenths
    rdRetryCount := a }

/-- Whether a retirement ends the command: the record is valid, or this was attempt `MAXR` (R123). -/
def Engine.commandEnds (e : Engine) (rd : ReadingRecord) : Bool :=
  rd.isValid || decide (e.attempt.toNat + 1 = e.maxr.toNat)

/-- The end of a command: the Reading is ready and the engine idle (R33, R123). -/
def Engine.finish (e : Engine) : Engine := { e with done := true, st := .idle }

/-- RETIRE: write the Reading, then return it or begin the next attempt in the same step (R123). -/
def retire (rd : ReadingRecord) (s : State) : Host.Outcome State Fault Refusal :=
  let e := s.eng.recordAttempt rd
  if s.eng.commandEnds rd then nextEngine s e.finish
  else beginAttempt { s with eng := e }

/-! ## The host's command -/

/-- The writes that accept a command (R121). -/
def Engine.acceptCommand (e : Engine) (n : Word32) : Engine :=
  { e with maxr := n, attempt := 0#32, done := false }

/-- GETREADING with operand `n`: accepted in Idle with a positive budget (R121), else refused
(R122). -/
def getReading (n : Word32) (s : State) : Host.Outcome State Fault Refusal :=
  if s.eng.busy then .refused .commandWhileBusy
  else if budgetOk n then beginAttempt { s with eng := s.eng.acceptCommand n }
  else .refused .budgetNotPositive

/-! ## What a step does around its operation -/

/-- The operation the coming step selects (R65). -/
def State.fetch (s : State) : Instr := decodeSt3 (dispatchWord s.inp.start s.eng.st)

/-- The inputs of the step after the coming one: the next one fixed beforehand, else a free one
(log 2). -/
def State.nextInput (s : State) : Input :=
  match s.script with
  | x :: _ => x
  | [] => Config.freeInput s.stepNo

/-- The end of a step: the next step's inputs are presented (log 2). -/
def State.advance (s : State) : State :=
  { s with inp := s.nextInput, script := s.script.tail, stepNo := s.stepNo + 1 }

/-- The reset input acts (R160): every register takes its reset value. -/
def State.resetEngine (s : State) : State := { s with eng := Engine.reset }

/-- What decides a step before the operation is looked at: `rst`, in any state (R160; log 11), then a
command strobe while busy (R80, R122). -/
def State.preempt (s : State) : Option (Host.Outcome State Fault Refusal) :=
  if s.inp.rst then some (.next s.resetEngine.advance)
  else if s.inp.start && s.eng.busy then some (.refused .commandWhileBusy)
  else none

/-- A step's outcome from its operation's: a next state is followed by the next inputs. -/
def finishStep : Host.Outcome State Fault Refusal → Host.Outcome State Fault Refusal
  | .next t => .next t.advance
  | .fault f => .fault f
  | .refused r => .refused r

/-! ## Placing an instruction for the coming step -/

/-- The state in which the coming step executes the word: a dispatch word sets `ST` and `start`
(R75), a command word presents `start` = 1 and `max_retries` in Idle (R64); `rst` is released. A
frame word and the RD signals are no input of the dispatch: nothing changes (log 5). -/
def State.placeCode (s : State) : Code → State
  | .st3 w =>
    { s with
      eng := { s.eng with st := St.ofCode (w.extractLsb' 0 3) }
      inp := { s.inp with start := w.getLsbD 3, rst := false } }
  | .cmd w =>
    { s with
      eng := { s.eng with st := .idle }
      inp := { s.inp with
        start := w.getLsbD 32, maxRetries := w.extractLsb' 0 32, rst := false } }
  | .f40 _ => s
  | .rd _ => s

end Sys2Proof.Machine
end

