-- ==== Sys2Proof/Machine/Acquisition.lean ====
section
/-! DEFINITION. The acquisition state machine (40_acquisition_fsm.md): BEGIN_ATTEMPT, HOLD, AWAIT,
CAPTURE, RETIRE_S, RETIRE_T, and the reserved codes of `ST`. -/

namespace Sys2Proof.Machine

/-- BEGIN_ATTEMPT (R82). -/
def execBeginAttempt (s : State) : Host.Outcome State Fault Refusal := beginAttempt s

/-- The writes of HOLD when the hold is over: the line is released and the response window opens
(R83). -/
def Engine.release (e : Engine) (x : Input) : Engine :=
  let e := e.setPinMode .input
  { e with
    prevLevel := .high
    deadline := deadlineAfter (nowMillis x) Config.tResponseMs
    st := .awaitingResponse }

/-- HOLD (R83). -/
def execHold (s : State) : Host.Outcome State Fault Refusal :=
  if deadlinePassed s.inp s.eng.deadline then nextEngine s (s.eng.release s.inp)
  else .next s

/-- The writes of AWAIT inside the response window, for the level read (R84): a rising edge opens
the capture window, a falling edge is remembered, an unchanged level writes nothing. -/
def Engine.awaitLevel (e : Engine) (x : Input) : Engine :=
  if pinRead x = e.prevLevel then e
  else
    match pinRead x with
    | .high =>
      { e with
        deadline := deadlineAfter (nowMillis x) Config.tCaptureMs
        prevLevel := .high
        st := .capturingBits }
    | .low => { e with prevLevel := .low }

/-- AWAIT (R84): the deadline is looked at before the level (R143). -/
def execAwait (s : State) : Host.Outcome State Fault Refusal :=
  if deadlinePassed s.inp s.eng.deadline then nextEngine s { s.eng with st := .timedOut }
  else nextEngine s (s.eng.awaitLevel s.inp)

/-- The frame after a falling edge at `now`: the first edge of an attempt closes no duration, every
later one writes the bit of the duration it closes (R85, R104). -/
def Engine.frameAfterEdge (e : Engine) (now : Word64) : FrameWord :=
  if e.edgeCnt = 0#6 then e.frame
  else shiftIn e.frame e.edgeCnt (decodeBit (duration now e.prevTime) e.threshold)

/-- The writes of a falling edge at `now`; edge number 40 completes the frame (R85). -/
def Engine.fallingEdge (e : Engine) (now : Word64) : Engine :=
  { e with
    frame := e.frameAfterEdge now
    prevTime := now
    edgeCnt := incEdge e.edgeCnt
    st := if e.edgeCnt.toNat + 1 = 41 then .success else e.st }

/-- The writes of CAPTURE inside the capture window (R85). -/
def Engine.captureLevel (e : Engine) (x : Input) : Engine :=
  let e' := if e.prevLevel = .high ∧ pinRead x = .low then e.fallingEdge (nowTicks x) else e
  { e' with prevLevel := pinRead x }

/-- CAPTURE (R85): the deadline is looked at before the level (R143). -/
def execCapture (s : State) : Host.Outcome State Fault Refusal :=
  if deadlinePassed s.inp s.eng.deadline then nextEngine s { s.eng with st := .timedOut }
  else nextEngine s (s.eng.captureLevel s.inp)

/-- RETIRE_S (R86). -/
def execRetireS (s : State) : Host.Outcome State Fault Refusal :=
  retire (readingOfFrame s.eng.frame) s

/-- RETIRE_T (R87). -/
def execRetireT (s : State) : Host.Outcome State Fault Refusal := retire readingOfTimeout s

/-- RESERVED_ST6_ST7: the codes 6 and 7 name no state and are refused (R66, U1). -/
def execReserved (_bit0 : Bool) (_s : State) : Host.Outcome State Fault Refusal :=
  .refused .reservedState

end Sys2Proof.Machine
end

