-- ==== Sys2Proof/Machine/ChecksumConvert.lean ====
section
/-! DEFINITION. The combinational rows of the checksum validator and unit converter
(42_checksum_convert.md) executed by themselves, and the format F40: the result is shown and no
register changes. -/

namespace Sys2Proof.Machine

/-- FIELDS (R110). -/
def execFields (frame : FrameWord) (s : State) : Host.Outcome State Fault Refusal :=
  showResult s (.fields (fields frame))

/-- CHKSUM (R111). -/
def execChksum (hI hF tI tF ck : Byte) (s : State) : Host.Outcome State Fault Refusal :=
  showResult s (.bit (chksum hI hF tI tF ck))

/-- CONVERT (R112). -/
def execConvert (hI hF tI tF : Byte) (s : State) : Host.Outcome State Fault Refusal :=
  showResult s (.tenths (convert hI hF tI tF).1 (convert hI hF tI tF).2)

/-- READING_OF_FRAME (R113). -/
def execReadingOfFrame (frame : FrameWord) (s : State) : Host.Outcome State Fault Refusal :=
  showResult s (.record (readingOfFrame frame))

/-- READING_OF_TIMEOUT (R115). -/
def execReadingOfTimeout (s : State) : Host.Outcome State Fault Refusal :=
  showResult s (.record readingOfTimeout)

/-- A word of format F40: what the engine makes of that frame (R63, R70). DESIGN CHOICE (log 6). -/
def execF40 (h g t u c : Byte) (s : State) : Host.Outcome State Fault Refusal :=
  showResult s (.record (readingOfFrame (frameOfFields h g t u c)))

end Sys2Proof.Machine
end

