-- ==== Sys2Proof/Machine/FrameDecoder.lean ====
section
/-! DEFINITION. The combinational rows of the frame decoder (41_frame_decoder.md) executed by
themselves: the result is shown and no register changes. -/

namespace Sys2Proof.Machine

/-- THRESH (R100). -/
def execThresh (tps : Word64) (s : State) : Host.Outcome State Fault Refusal :=
  showResult s (.ticks (thresh tps))

/-- DURATION (R101). -/
def execDuration (now prev : Word64) (s : State) : Host.Outcome State Fault Refusal :=
  showResult s (.ticks (duration now prev))

/-- DECODEBIT (R102). -/
def execDecodebit (d threshold : Word64) (s : State) : Host.Outcome State Fault Refusal :=
  showResult s (.bit (decodeBit d threshold))

/-- SHIFTIN (R103). -/
def execShiftin (frame : FrameWord) (i : BitVec 6) (b : Bool) (s : State) :
    Host.Outcome State Fault Refusal :=
  showResult s (.frame (shiftIn frame i b))

end Sys2Proof.Machine
end

