-- ==== Sys2Proof/Machine/Retry.lean ====
section
/-! DEFINITION. The retry policy and the host's side (43_retry_policy.md): IDLE, GETREADING, its
command words, RETIRE, and the host's read of the RD signals. -/

namespace Sys2Proof.Machine

/-- IDLE (R120): no register changes. -/
def execIdle (s : State) : Host.Outcome State Fault Refusal := .next s

/-- GETREADING (R121): the operand is `max_retries` of this step. -/
def execGetreading (s : State) : Host.Outcome State Fault Refusal := getReading s.inp.maxRetries s

/-- GETREADING_DEFAULT (R74): GETREADING 20. -/
def execGetreadingDefault (s : State) : Host.Outcome State Fault Refusal :=
  getReading defaultMaxRetries s

/-- A word of format CMD (R64): GETREADING with the word's operand. DESIGN CHOICE (log 6). -/
def execCmd (n : Word32) (s : State) : Host.Outcome State Fault Refusal := getReading n s

/-- RETIRE (R123). -/
def execRetire (rd : ReadingRecord) (s : State) : Host.Outcome State Fault Refusal := retire rd s

/-- RD (R68): the host reads the five Reading signals; a read has no side effect (R53). DESIGN
CHOICE (log 6). -/
def execRd (s : State) : Host.Outcome State Fault Refusal := showResult s (.reading s.eng.reading)

end Sys2Proof.Machine
end

