-- ==== Sys2Proof/Machine/Dispatch.lean ====
section
/-! DEFINITION. One arm per instruction. -/

namespace Sys2Proof.Machine

def exec (i : Instr) (s : State) : Host.Outcome State Fault Refusal :=
  match i with
  | .idle => Sys2Proof.Machine.execIdle s
  | .getreading => Sys2Proof.Machine.execGetreading s
  | .hold => Sys2Proof.Machine.execHold s
  | .await => Sys2Proof.Machine.execAwait s
  | .capture => Sys2Proof.Machine.execCapture s
  | .retireS => Sys2Proof.Machine.execRetireS s
  | .retireT => Sys2Proof.Machine.execRetireT s
  | .reserved b => Sys2Proof.Machine.execReserved b s
  | .getreadingDefault => Sys2Proof.Machine.execGetreadingDefault s
  | .beginAttempt => Sys2Proof.Machine.execBeginAttempt s
  | .retire rd => Sys2Proof.Machine.execRetire rd s
  | .thresh tps => Sys2Proof.Machine.execThresh tps s
  | .duration now prev => Sys2Proof.Machine.execDuration now prev s
  | .decodebit d threshold => Sys2Proof.Machine.execDecodebit d threshold s
  | .shiftin frame j b => Sys2Proof.Machine.execShiftin frame j b s
  | .fields frame => Sys2Proof.Machine.execFields frame s
  | .chksum hI hF tI tF ck => Sys2Proof.Machine.execChksum hI hF tI tF ck s
  | .convert hI hF tI tF => Sys2Proof.Machine.execConvert hI hF tI tF s
  | .readingOfFrame frame => Sys2Proof.Machine.execReadingOfFrame frame s
  | .readingOfTimeout => Sys2Proof.Machine.execReadingOfTimeout s
  | .f40 h g t u c => Sys2Proof.Machine.execF40 h g t u c s
  | .cmd n => Sys2Proof.Machine.execCmd n s
  | .rd => Sys2Proof.Machine.execRd s

end Sys2Proof.Machine
end

