-- ==== Sys2Proof/Machine/Step.lean ====
section
/-! DEFINITION. One step of the engine (R17, R80), and how a table word is placed for it. -/

namespace Sys2Proof.Machine

/-- One step: reset and a strobe while busy decide first, else the operation that `start` and `ST`
select is executed; then the next step's inputs are presented. -/
def step (s : State) : Host.Outcome State Fault Refusal :=
  match s.preempt with
  | some o => o
  | none => finishStep (exec s.fetch s)

/-- `s` with the word of a table row placed so that the coming step executes it; a word that is no
dispatch word and no command word leaves `s` as it is (log 5, log 15). -/
def State.withFetchWord (s : State) (nbits w : Nat) : State :=
  match codeOfTableWord nbits w with
  | some c => s.placeCode c
  | none => s

end Sys2Proof.Machine
end

