-- ==== Sys2Proof/Safety.lean ====
section
/-! DEFINITION. The terms the claims use: the invariants of a reachable state (R35), the transition
relation (R81), the cases the spec refuses (R16, R122), what an operation leaves in the registers as
its rule lists it, and runs of retirements and of capture polls. The formulas here are written from
the rules over natural numbers, not over the machine's own definitions. -/

namespace Sys2Proof.Machine

/-! ## The invariants of R35 -/

/-- Item 1: `ST` holds no reserved code. -/
abbrev Engine.StateOk (e : Engine) : Prop := e.st ≠ .reserved6 ∧ e.st ≠ .reserved7

/-- Items 3 and 4: the pin is in Output mode exactly in SignalingReset, and only Low is driven. -/
abbrev Engine.PinOk (e : Engine) : Prop :=
  (e.pinMode = .output ↔ e.st = .signalingReset) ∧ e.pinOut = .low

/-- Item 5: the count of falling edges in each state. -/
abbrev Engine.EdgesOk (e : Engine) : Prop :=
  (e.st = .signalingReset ∨ e.st = .awaitingResponse → e.edgeCnt = 0#6) ∧
    (e.st = .capturingBits → e.edgeCnt.toNat ≤ 40) ∧
    (e.st = .success → e.edgeCnt.toNat = 41)

/-- Item 6, with the cleared frame before the first edge: until the capture ends, the frame bits at
and below `40 − EDGE_CNT` are 0. -/
abbrev Engine.FrameOk (e : Engine) : Prop :=
  e.st = .signalingReset ∨ e.st = .awaitingResponse ∨ e.st = .capturingBits →
    ∀ p : Nat, p < 40 → p ≤ 40 - e.edgeCnt.toNat → e.frame.getLsbD p = false

/-- Item 7: a command in flight has a legal budget that is not used up. -/
abbrev Engine.BudgetOk (e : Engine) : Prop :=
  e.st ≠ .idle →
    1 ≤ e.maxr.toNat ∧ e.maxr.toNat ≤ 2 ^ 31 - 1 ∧ e.attempt.toNat < e.maxr.toNat

/-- Item 8, and the range of the two values (R32): the source's Reading invariant. -/
abbrev Engine.ReadingOk (e : Engine) : Prop :=
  (e.rdTimedOut = true → e.rdIsValid = false) ∧
    (e.rdIsValid = false → e.rdHumTenths = 0#12 ∧ e.rdTempTenths = 0#12) ∧
    e.rdHumTenths.toNat ≤ 2805 ∧ e.rdTempTenths.toNat ≤ 2805

/-- Item 9: what a finished command shows. -/
abbrev Engine.DoneOk (e : Engine) : Prop :=
  e.done = true →
    e.st = .idle ∧ e.rdRetryCount = e.attempt ∧ 1 ≤ e.attempt.toNat ∧
      (e.rdIsValid = true ∨ e.attempt = e.maxr)

/-- The invariants of R35 together. -/
abbrev Engine.Inv (e : Engine) : Prop :=
  e.StateOk ∧ e.PinOk ∧ e.EdgesOk ∧ e.FrameOk ∧ e.BudgetOk ∧ e.ReadingOk ∧ e.DoneOk

/-! ## Frames and values over the natural numbers -/

/-- Byte `k` of a frame, byte 0 the checksum, byte 4 the first on the wire (R63). -/
def frameByte (f : FrameWord) (k : Nat) : Nat := f.toNat / 2 ^ (8 * k) % 256

/-- The validity rule (R111). -/
abbrev FrameValid (f : FrameWord) : Prop :=
  frameByte f 0 = (frameByte f 4 + frameByte f 3 + frameByte f 2 + frameByte f 1) % 256

/-- The reading record of a complete frame, by R111 to R113. -/
def recordByRule (f : FrameWord) : ReadingRecord :=
  if FrameValid f then
    { timedOut := false, isValid := true
      humTenths := BitVec.ofNat 12 (10 * frameByte f 4 + frameByte f 3)
      tempTenths := BitVec.ofNat 12 (10 * frameByte f 2 + frameByte f 1) }
  else { timedOut := false, isValid := false, humTenths := 0#12, tempTenths := 0#12 }

/-- A timed-out attempt's record (R115). -/
def recordOfTimeoutByRule : ReadingRecord :=
  { timedOut := true, isValid := false, humTenths := 0#12, tempTenths := 0#12 }

/-! ## The registers after an operation, as its rule lists them -/

/-- After BEGIN_ATTEMPT with input `x` (R82). -/
def Engine.begun (e : Engine) (x : Input) : Engine :=
  { e with
    frame := 0#40, edgeCnt := 0#6, prevTime := 0#64
    threshold := BitVec.ofNat 64 ((110 * x.sample.tps.toNat + 500000) / 1000000)
    pinOut := .low, pinMode := .output
    deadline := x.sample.millis + 18#64, st := .signalingReset }

/-- After the writes every retirement of record `rd` makes, `a` being the attempt's index (R123). -/
def Engine.retired (e : Engine) (rd : ReadingRecord) (a : Word32) : Engine :=
  { e with
    attempt := a, rdTimedOut := rd.timedOut, rdIsValid := rd.isValid
    rdHumTenths := rd.humTenths, rdTempTenths := rd.tempTenths, rdRetryCount := a }

/-- After a retirement that ends the command (R123). -/
def Engine.returned (e : Engine) (rd : ReadingRecord) (a : Word32) : Engine :=
  { e.retired rd a with done := true, st := .idle }

/-! ## The transition relation and the refused cases -/

/-- A falling edge is seen: the previous level High, the level read Low (R85). -/
abbrev Engine.FallingSeen (e : Engine) (x : Input) : Prop :=
  e.prevLevel = .high ∧ x.sample.lvl = .low

/-- A rising edge is seen (R84). -/
abbrev Engine.RisingSeen (e : Engine) (x : Input) : Prop :=
  e.prevLevel = .low ∧ x.sample.lvl = .high

/-- The table of R81: `st'` may follow under the input `x`. -/
def Engine.Transition (e : Engine) (x : Input) (st' : St) : Prop :=
  match e.st with
  | .idle =>
    (x.start = false ∧ st' = .idle) ∨
      (x.start = true ∧ 1 ≤ x.maxRetries.toInt ∧ st' = .signalingReset)
  | .signalingReset =>
    (x.sample.millis ≤ e.deadline ∧ st' = .signalingReset) ∨
      (x.sample.millis > e.deadline ∧ st' = .awaitingResponse)
  | .awaitingResponse =>
    (x.sample.millis > e.deadline ∧ st' = .timedOut) ∨
      (x.sample.millis ≤ e.deadline ∧ e.RisingSeen x ∧ st' = .capturingBits) ∨
      (x.sample.millis ≤ e.deadline ∧ ¬e.RisingSeen x ∧ st' = .awaitingResponse)
  | .capturingBits =>
    (x.sample.millis > e.deadline ∧ st' = .timedOut) ∨
      (x.sample.millis ≤ e.deadline ∧ e.FallingSeen x ∧ e.edgeCnt = 40#6 ∧ st' = .success) ∨
      (x.sample.millis ≤ e.deadline ∧ ¬(e.FallingSeen x ∧ e.edgeCnt = 40#6) ∧
        st' = .capturingBits)
  | .success =>
    ((FrameValid e.frame ∨ e.attempt.toNat + 1 = e.maxr.toNat) ∧ st' = .idle) ∨
      (¬FrameValid e.frame ∧ e.attempt.toNat + 1 < e.maxr.toNat ∧ st' = .signalingReset)
  | .timedOut =>
    (e.attempt.toNat + 1 = e.maxr.toNat ∧ st' = .idle) ∨
      (e.attempt.toNat + 1 < e.maxr.toNat ∧ st' = .signalingReset)
  | .reserved6 => False
  | .reserved7 => False

/-- The step begins an attempt: an accepted command, or a retirement that is followed by a retry
(R82, R121, R123). -/
def State.BeginsAttempt (s : State) : Prop :=
  match s.eng.st with
  | .idle => s.inp.start = true ∧ 1 ≤ s.inp.maxRetries.toInt
  | .success => ¬FrameValid s.eng.frame ∧ s.eng.attempt.toNat + 1 ≠ s.eng.maxr.toNat
  | .timedOut => s.eng.attempt.toNat + 1 ≠ s.eng.maxr.toNat
  | _ => False

/-- The cases the spec refuses, with `rst` released: a strobe while busy, a budget that is not
positive, a reserved code, a clock port that is not available (R66, R122, R46). -/
def State.RefusedCase (s : State) : Prop :=
  (s.inp.start = true ∧ s.eng.st ≠ .idle) ∨
    (s.inp.start = true ∧ s.eng.st = .idle ∧ s.inp.maxRetries.toInt ≤ 0) ∨
    s.eng.st = .reserved6 ∨ s.eng.st = .reserved7 ∨
    (s.BeginsAttempt ∧ s.inp.sample.tps = 0#64)

/-! ## Runs -/

/-- The attempts of one command, each by the inputs of the step it retires in and the record it
retires with: RETIRE is executed by itself for each in order, and the run stops as soon as the command
has returned (R124). What an attempt does before it retires is left out, so RETIRE is executed in
states whose `ST` does not select it (log 4, log 14). -/
def retireAll : List (Input × ReadingRecord) → State → Host.Outcome State Fault Refusal
  | [], s => .next s
  | p :: ps, s =>
    match exec (.retire p.2) { s with inp := p.1 } with
    | .next t => if t.eng.done then .next t else retireAll ps t
    | o => o

/-- CAPTURE polled with the inputs `xs` in order, until the state is left. -/
def captureAll : List Input → State → Host.Outcome State Fault Refusal
  | [], s => .next s
  | x :: xs, s =>
    match exec .capture { s with inp := x } with
    | .next t => if t.eng.st = .capturingBits then captureAll xs t else .next t
    | o => o

/-- The tick values of the falling edges among the polls `xs`, the line having been at `prev` before
them (R85, R89). -/
def edgeTimes (prev : Level) : List Input → List Word64
  | [] => []
  | x :: xs =>
    if prev = .high ∧ x.sample.lvl = .low then x.sample.ticks :: edgeTimes x.sample.lvl xs
    else edgeTimes x.sample.lvl xs

/-- The engine has seen falling edges at exactly the times `ts` in this attempt: the count, the last
time, and the bit of every duration closed so far, the other frame bits 0 (R104). -/
def Engine.Tracks (e : Engine) (ts : List Word64) : Prop :=
  e.edgeCnt.toNat = ts.length ∧
    (∀ t, ts.getLast? = some t → e.prevTime = t) ∧
    ∀ i : Nat, 1 ≤ i → i ≤ 40 →
      e.frame.getLsbD (40 - i) =
        (decide (i < ts.length) && decide (ts.getD i 0#64 - ts.getD (i - 1) 0#64 > e.threshold))

end Sys2Proof.Machine
end

