-- ==== Sys2Proof/Certificates/Slice0/Obligations.lean ====
section
/-! DEFINITION. The statements for the provers. The engine has no memory (R40), so no frame speaks
of bytes: a next state written out as `{ s with … }` says that every register, both pin outputs, the
inputs and the model's own fields are unchanged but those it names. -/

open Sys2Proof Sys2Proof.Machine

/-! ## Encoding -/

/-- R65, R66, R75: every dispatch word selects the operation of the opcode map; from `ST` = 1 on the
`start` bit is not part of the match. -/
def Obligations.DispatchWordsSelectOperations : Prop :=
  decodeSt3 0b0000#4 = .idle ∧ decodeSt3 0b1000#4 = .getreading ∧
  decodeSt3 0b0001#4 = .hold ∧ decodeSt3 0b1001#4 = .hold ∧
  decodeSt3 0b0010#4 = .await ∧ decodeSt3 0b1010#4 = .await ∧
  decodeSt3 0b0011#4 = .capture ∧ decodeSt3 0b1011#4 = .capture ∧
  decodeSt3 0b0100#4 = .retireS ∧ decodeSt3 0b1100#4 = .retireS ∧
  decodeSt3 0b0101#4 = .retireT ∧ decodeSt3 0b1101#4 = .retireT ∧
  decodeSt3 0b0110#4 = .reserved false ∧ decodeSt3 0b1110#4 = .reserved false ∧
  decodeSt3 0b0111#4 = .reserved true ∧ decodeSt3 0b1111#4 = .reserved true

/-- R63, R64, R65: decoding the word of an instruction gives it back, with every operand at every
value. R74 gives the word CMD 20 two names and says that the engine cannot tell them apart; that the
decoder answers with GETREADING_DEFAULT is the model's choice (log 7). -/
def Obligations.DecodeInvertsEncode : Prop :=
  ∀ (i : Instr) (c : Code), encode i = some c → decode c = .ok i.canonical

/-- R63, R64, R75: encoding what a word decodes to gives the word back: every bit of a frame word and
of a command word, and of a dispatch word all bits but the `start` bit where it is not part of the
match. -/
def Obligations.EncodeInvertsDecode : Prop :=
  (∀ (w : FrameWord) (i : Instr), decode (.f40 w) = .ok i → encode i = some (.f40 w)) ∧
  (∀ (w : BitVec 33) (i : Instr), decode (.cmd w) = .ok i → encode i = some (.cmd w)) ∧
  (∀ w : BitVec 33, decode (.cmd w) = .error .noCommand ↔ w.toNat < 2 ^ 32) ∧
  (∀ w : BitVec 4,
    encode (decodeSt3 w) = some (.st3 (if w.toNat % 8 = 0 then w else w &&& 7#4)))

/-- R68: the RD word carries the five signals in the stated order, and no bit is lost either way. -/
def Obligations.ReadingWordRoundTrip : Prop :=
  (∀ r : Reading, readingOfRdWord (rdWordOfReading r) = r) ∧
  (∀ w : BitVec 58, rdWordOfReading (readingOfRdWord w) = w) ∧
  (∀ r : Reading,
    (rdWordOfReading r).toNat / 2 ^ 57 = r.timedOut.toNat ∧
    (rdWordOfReading r).toNat / 2 ^ 56 % 2 = r.isValid.toNat ∧
    (rdWordOfReading r).toNat / 2 ^ 44 % 2 ^ 12 = r.humTenths.toNat ∧
    (rdWordOfReading r).toNat / 2 ^ 32 % 2 ^ 12 = r.tempTenths.toNat ∧
    (rdWordOfReading r).toNat % 2 ^ 32 = r.retryCount.toNat)

/-! ## The step -/

/-- R80: with `rst` released and no strobe while busy, a step is the execution of the operation that
the dispatch word `start ++ ST` decodes to. Around it the model presents the next inputs (log 2): the
next one fixed beforehand, else a free one. -/
def Obligations.StepRunsTheSelectedOperation : Prop :=
  ∀ s : State, s.inp.rst = false → (s.inp.start = true → s.eng.st = .idle) →
    step s =
      match exec (decodeSt3 (BitVec.ofBool s.inp.start ++ s.eng.st.code)) s with
      | .next t =>
        .next { t with
          inp := match s.script with
            | x :: _ => x
            | [] => Config.freeInput s.stepNo
          script := s.script.tail
          stepNo := s.stepNo + 1 }
      | .fault f => .fault f
      | .refused r => .refused r

/-- R80, R122, R66, R46: with `rst` released the step has a next state in every case but the four
the spec refuses, and there it has none. -/
def Obligations.StepIsTotalOutsideTheRefusedCases : Prop :=
  ∀ s : State, s.inp.rst = false →
    ((∃ t, step s = .next t) ↔ ¬s.RefusedCase) ∧
    (s.RefusedCase → ∃ r, step s = .refused r)

/-- R81: the transition table lists all the changes of `ST`. The two rows "`ATTEMPT` + 1 < `MAXR`"
rest on the invariant that a command in flight has attempts left. -/
def Obligations.StepFollowsTheTransitionTable : Prop :=
  ∀ s t : State, s.inp.rst = false → s.eng.BudgetOk → step s = .next t →
    s.eng.Transition s.inp t.eng.st

/-! ## Reset and the invariants -/

/-- R39: the reset value of every register. -/
def Obligations.ResetValuesOfEveryRegister : Prop :=
  State.reset.eng.st = .idle ∧ State.reset.eng.frame = 0#40 ∧ State.reset.eng.edgeCnt = 0#6 ∧
  State.reset.eng.prevLevel = .high ∧ State.reset.eng.prevTime = 0#64 ∧
  State.reset.eng.deadline = 0#64 ∧ State.reset.eng.threshold = 0#64 ∧
  State.reset.eng.attempt = 0#32 ∧ State.reset.eng.maxr = 0#32 ∧
  State.reset.eng.pinMode = .input ∧ State.reset.eng.pinOut = .low ∧
  State.reset.eng.done = false ∧ State.reset.eng.rdTimedOut = false ∧
  State.reset.eng.rdIsValid = false ∧ State.reset.eng.rdHumTenths = 0#12 ∧
  State.reset.eng.rdTempTenths = 0#12 ∧ State.reset.eng.rdRetryCount = 0#32

/-- R160, R39: a step with `rst` asserted leaves the engine as it is after reset, in any state and
whatever the other inputs are; that `rst` also wins over a refused strobe is the model's reading of
"in any state" (log 11). -/
def Obligations.ResetInputRestoresTheResetValues : Prop :=
  ∀ s : State, s.inp.rst = true → ∃ t, step s = .next t ∧ t.eng = State.reset.eng

/-- R35, R39: the state after reset meets every invariant of R35. -/
def Obligations.ResetMeetsTheInvariants : Prop := State.reset.eng.Inv

/-- R35: every step, from every state that meets the invariants, keeps them, whatever the inputs. -/
def Obligations.EveryStepKeepsTheInvariants : Prop :=
  ∀ s t : State, s.eng.Inv → step s = .next t → t.eng.Inv

/-! ## The acquisition state machine -/

/-- R82: BEGIN_ATTEMPT, with a usable clock, in any state. -/
def Obligations.BeginAttemptStartsTheResetPulse : Prop :=
  ∀ s : State, s.inp.sample.tps ≠ 0#64 →
    exec .beginAttempt s = .next { s with
      eng := { s.eng with
        frame := 0#40, edgeCnt := 0#6, prevTime := 0#64
        threshold := BitVec.ofNat 64 ((110 * s.inp.sample.tps.toNat + 500000) / 1000000)
        pinOut := .low, pinMode := .output
        deadline := s.inp.sample.millis + 18#64, st := .signalingReset } }

/-- R46, U6: with `TicksPerSecond` = 0 no attempt begins: the procedure, an acceptable command and
a retirement that would be followed by a retry are refused. -/
def Obligations.ZeroFrequencyIsRefused : Prop :=
  ∀ s : State, s.inp.sample.tps = 0#64 →
    exec .beginAttempt s = .refused .clockUnavailable ∧
    (s.eng.st = .idle → 1 ≤ s.inp.maxRetries.toInt →
      exec .getreading s = .refused .clockUnavailable) ∧
    (∀ rd : ReadingRecord, rd.isValid = false →
      s.eng.attempt.toNat + 1 ≠ s.eng.maxr.toNat →
      exec (.retire rd) s = .refused .clockUnavailable)

/-- R83: HOLD releases the line in the first step whose count is past the deadline, and changes
nothing before. -/
def Obligations.HoldReleasesAfterTheDeadline : Prop :=
  ∀ s : State,
    (s.inp.sample.millis > s.eng.deadline →
      exec .hold s = .next { s with
        eng := { s.eng with
          pinMode := .input, prevLevel := .high
          deadline := s.inp.sample.millis + 1#64, st := .awaitingResponse } }) ∧
    (s.inp.sample.millis ≤ s.eng.deadline → exec .hold s = .next s)

/-- R84: AWAIT, case by case, the deadline first. -/
def Obligations.AwaitTakesTheFirstRisingEdge : Prop :=
  ∀ s : State,
    (s.inp.sample.millis > s.eng.deadline →
      exec .await s = .next { s with eng := { s.eng with st := .timedOut } }) ∧
    (s.inp.sample.millis ≤ s.eng.deadline →
      (s.inp.sample.lvl = s.eng.prevLevel → exec .await s = .next s) ∧
      (s.eng.prevLevel = .low → s.inp.sample.lvl = .high →
        exec .await s = .next { s with
          eng := { s.eng with
            deadline := s.inp.sample.millis + 10#64, prevLevel := .high
            st := .capturingBits } }) ∧
      (s.eng.prevLevel = .high → s.inp.sample.lvl = .low →
        exec .await s = .next { s with eng := { s.eng with prevLevel := .low } }))

/-- R85: CAPTURE without a bit: the timeout, a step that shows no falling edge, the first falling
edge. -/
def Obligations.CaptureWithoutABit : Prop :=
  ∀ s : State,
    (s.inp.sample.millis > s.eng.deadline →
      exec .capture s = .next { s with eng := { s.eng with st := .timedOut } }) ∧
    (s.inp.sample.millis ≤ s.eng.deadline →
      (¬s.eng.FallingSeen s.inp →
        exec .capture s =
          .next { s with eng := { s.eng with prevLevel := s.inp.sample.lvl } }) ∧
      (s.eng.FallingSeen s.inp → s.eng.edgeCnt = 0#6 →
        exec .capture s = .next { s with
          eng := { s.eng with
            prevTime := s.inp.sample.ticks, edgeCnt := 1#6, prevLevel := .low } }))

/-- R85, R101 to R103: falling edge number `e`, 1 ≤ `e` ≤ 40, sets frame bit `40 − e` to whether the
duration since the previous falling edge is above the threshold; edge number 40 ends in Success. -/
def Obligations.CaptureWritesTheBitOfAFallingEdge : Prop :=
  ∀ s : State, s.inp.sample.millis ≤ s.eng.deadline → s.eng.FallingSeen s.inp →
    1 ≤ s.eng.edgeCnt.toNat → s.eng.edgeCnt.toNat ≤ 40 →
    ∃ f : FrameWord,
      (∀ p : Nat, p < 40 →
        f.getLsbD p =
          if p = 40 - s.eng.edgeCnt.toNat then
            decide ((s.inp.sample.ticks.toNat + 2 ^ 64 - s.eng.prevTime.toNat) % 2 ^ 64 >
              s.eng.threshold.toNat)
          else s.eng.frame.getLsbD p) ∧
      exec .capture s = .next { s with
        eng := { s.eng with
          frame := f, prevTime := s.inp.sample.ticks, edgeCnt := s.eng.edgeCnt + 1#6
          prevLevel := .low
          st := if s.eng.edgeCnt.toNat = 40 then .success else s.eng.st } }

/-- The model's choice (log 8, log 9) beyond rule R85: in a state no run reaches, with EDGE_CNT above
40, CAPTURE still runs on a falling edge; only what FRAME holds, and EDGE_CNT after 63, is free. -/
def Obligations.CaptureBeyondTheLastEdgeStillRuns : Prop :=
  ∀ s : State, s.inp.sample.millis ≤ s.eng.deadline → s.eng.FallingSeen s.inp →
    40 < s.eng.edgeCnt.toNat →
    ∃ (f : FrameWord) (n : BitVec 6),
      (s.eng.edgeCnt.toNat < 63 → n.toNat = s.eng.edgeCnt.toNat + 1) ∧
      exec .capture s = .next { s with
        eng := { s.eng with
          frame := f, prevTime := s.inp.sample.ticks, edgeCnt := n, prevLevel := .low } }

/-- R86, R111 to R113, R123: RETIRE_S validates and converts the frame and retires the attempt; it
returns when the frame is valid or the budget used up, else the next attempt begins. The attempt's
index is `ATTEMPT` + 1 (free only past 2^32 − 1, log 9, where no run comes). -/
def Obligations.RetireSRetiresTheFrame : Prop :=
  ∀ s : State, ∃ a : Word32,
    (s.eng.attempt.toNat + 1 < 2 ^ 32 → a.toNat = s.eng.attempt.toNat + 1) ∧
    (FrameValid s.eng.frame ∨ s.eng.attempt.toNat + 1 = s.eng.maxr.toNat →
      exec .retireS s = .next { s with
        eng := s.eng.returned (recordByRule s.eng.frame) a }) ∧
    (¬FrameValid s.eng.frame → s.eng.attempt.toNat + 1 ≠ s.eng.maxr.toNat →
      s.inp.sample.tps ≠ 0#64 →
      exec .retireS s = .next { s with
        eng := (s.eng.retired (recordByRule s.eng.frame) a).begun s.inp })

/-- R87, R115, R123: RETIRE_T records the timeout, whatever the partial frame is. The attempt's index
is `ATTEMPT` + 1 (free only past 2^32 − 1, log 9, where no run comes). -/
def Obligations.RetireTRecordsTheTimeout : Prop :=
  ∀ s : State, ∃ a : Word32,
    (s.eng.attempt.toNat + 1 < 2 ^ 32 → a.toNat = s.eng.attempt.toNat + 1) ∧
    (s.eng.attempt.toNat + 1 = s.eng.maxr.toNat →
      exec .retireT s = .next { s with
        eng := s.eng.returned recordOfTimeoutByRule a }) ∧
    (s.eng.attempt.toNat + 1 ≠ s.eng.maxr.toNat → s.inp.sample.tps ≠ 0#64 →
      exec .retireT s = .next { s with
        eng := (s.eng.retired recordOfTimeoutByRule a).begun s.inp })

/-- R66, U1: the reserved codes are refused, as instructions and in a step, whatever `start` is. -/
def Obligations.ReservedCodesAreRefused : Prop :=
  (∀ (b : Bool) (s : State), exec (.reserved b) s = .refused .reservedState) ∧
  (∀ s : State, s.inp.rst = false → s.eng.st = .reserved6 ∨ s.eng.st = .reserved7 →
    (s.inp.start = false → step s = .refused .reservedState) ∧ ∃ r, step s = .refused r)

/-- R143: in the three waiting states the deadline decides before the level: a step past it changes
no register but `ST` in AWAIT and CAPTURE, whatever the line shows, and ends the hold in HOLD. -/
def Obligations.DeadlineDecidesBeforeTheLevel : Prop :=
  ∀ s : State, s.inp.rst = false → s.inp.start = false →
    s.inp.sample.millis > s.eng.deadline →
    (s.eng.st = .awaitingResponse ∨ s.eng.st = .capturingBits →
      step s = .next { s with eng := { s.eng with st := .timedOut } }.advance) ∧
    (s.eng.st = .signalingReset → ∃ t, step s = .next t ∧ t.eng.st = .awaitingResponse)

/-- R88, R91: a wait that is entered at count `m` with a budget of `B` counts is over in a step
exactly when its count is `m` + `B` + 1 or more: 19 for the hold, 2 for the response, 11 for the
capture; counts near the top of the 64-bit range, where the sum wraps, are left out. -/
def Obligations.WaitsLastTheirBudgetAndOneCount : Prop :=
  ∀ (s : State) (x : Input), s.inp.sample.millis.toNat + 18 < 2 ^ 64 →
    (s.inp.sample.tps ≠ 0#64 → ∃ t, exec .beginAttempt s = .next t ∧
      ((∃ u, exec .hold { t with inp := x } = .next u ∧ u.eng.st ≠ .signalingReset) ↔
        s.inp.sample.millis.toNat + 19 ≤ x.sample.millis.toNat)) ∧
    (s.inp.sample.millis > s.eng.deadline → ∃ t, exec .hold s = .next t ∧
      ((∃ u, exec .await { t with inp := x } = .next u ∧ u.eng.st = .timedOut) ↔
        s.inp.sample.millis.toNat + 2 ≤ x.sample.millis.toNat)) ∧
    (s.inp.sample.millis ≤ s.eng.deadline → s.eng.RisingSeen s.inp →
      ∃ t, exec .await s = .next t ∧
        ((∃ u, exec .capture { t with inp := x } = .next u ∧ u.eng.st = .timedOut) ↔
          s.inp.sample.millis.toNat + 11 ≤ x.sample.millis.toNat))

/-! ## The frame decoder -/

/-- R100: THRESH over the integers, for every frequency; the result fits its 64 bits. That the row,
executed by itself, shows its result and changes nothing else is the model's choice (log 4). -/
def Obligations.ThreshIsTheRoundedQuotient : Prop :=
  ∀ (tps : Word64) (s : State), ∃ v : Word64,
    exec (.thresh tps) s = .next { s with result := .ticks v } ∧
    v.toNat = (110 * tps.toNat + 500000) / 1000000 ∧ v.toNat ≤ 2029141848108051

/-- R105: doubling the frequency doubles the threshold exactly when 110 × tps is a multiple of
1_000_000, and, as R105 derives from R100, to within one tick in general. -/
def Obligations.ThresholdDoublesWithinOneTick : Prop :=
  ∀ f : Word64, 2 * f.toNat < 2 ^ 64 →
    (thresh (2#64 * f)).toNat ≤ 2 * (thresh f).toNat + 1 ∧
    2 * (thresh f).toNat ≤ (thresh (2#64 * f)).toNat + 1 ∧
    (110 * f.toNat % 1000000 = 0 → (thresh (2#64 * f)).toNat = 2 * (thresh f).toNat)

/-- R101: DURATION is the difference modulo 2^64, exact also when the counter wraps once between the
two edges. That the row, executed by itself, shows its result and changes nothing else is the model's
choice (log 4). -/
def Obligations.DurationIsTheModularDifference : Prop :=
  ∀ (now prev : Word64) (s : State), ∃ d : Word64,
    exec (.duration now prev) s = .next { s with result := .ticks d } ∧
    d.toNat = (now.toNat + 2 ^ 64 - prev.toNat) % 2 ^ 64 ∧
    (∀ k : Nat, k < 2 ^ 64 → now.toNat = (prev.toNat + k) % 2 ^ 64 → d.toNat = k)

/-- R102: DECODEBIT compares unsigned and strictly. That the row, executed by itself, shows its result
and changes nothing else is the model's choice (log 4). -/
def Obligations.DecodeBitIsStrictlyAbove : Prop :=
  ∀ (d threshold : Word64) (s : State), ∃ b : Bool,
    exec (.decodebit d threshold) s = .next { s with result := .bit b } ∧
    (b = true ↔ threshold.toNat < d.toNat) ∧ (d = threshold → b = false)

/-- R103: SHIFTIN sets bit `40 − i` and leaves every other bit, for the edge numbers 1 to 40; outside
them the spec states no result (log 8). That the row, executed by itself, shows its result and changes
nothing else is the model's choice (log 4). -/
def Obligations.ShiftInPlacesOneBit : Prop :=
  ∀ (frame : FrameWord) (i : BitVec 6) (b : Bool) (s : State),
    1 ≤ i.toNat → i.toNat ≤ 40 → ∃ f : FrameWord,
      exec (.shiftin frame i b) s = .next { s with result := .frame f } ∧
      f.getLsbD (40 - i.toNat) = b ∧
      ∀ p : Nat, p ≠ 40 - i.toNat → f.getLsbD p = frame.getLsbD p

/-- R104: polling CAPTURE over an attempt with 41 falling edges in time ends in Success with frame
bit `40 − i` equal to whether the `i`-th duration is above the threshold, for `i` = 1 to 40: the
frame is a function of the 40 durations and the threshold alone. -/
def Obligations.CapturedFrameIsTheFortyDurations : Prop :=
  ∀ (s : State) (xs : List Input), s.eng.st = .capturingBits → s.eng.edgeCnt = 0#6 →
    s.eng.frame = 0#40 → (∀ x ∈ xs, x.sample.millis ≤ s.eng.deadline) →
    41 ≤ (edgeTimes s.eng.prevLevel xs).length →
    ∃ t, captureAll xs s = .next t ∧ t.eng.st = .success ∧ t.eng.edgeCnt.toNat = 41 ∧
      t.eng.threshold = s.eng.threshold ∧
      ∀ i : Nat, 1 ≤ i → i ≤ 40 →
        t.eng.frame.getLsbD (40 - i) =
          decide ((edgeTimes s.eng.prevLevel xs).getD i 0#64 -
            (edgeTimes s.eng.prevLevel xs).getD (i - 1) 0#64 > s.eng.threshold)

/-- R85, R104: one poll of CAPTURE in time keeps the account of the attempt: the falling edges seen
so far and the bit of every duration closed; Success comes with the 41st edge and not before. -/
def Obligations.CaptureKeepsTheAccountOfEdges : Prop :=
  ∀ (s : State) (ts : List Word64), s.eng.st = .capturingBits → s.eng.Tracks ts →
    ts.length ≤ 40 → s.inp.sample.millis ≤ s.eng.deadline →
    ∃ t, exec .capture s = .next t ∧ t.eng.threshold = s.eng.threshold ∧
      t.eng.Tracks
        (if s.eng.FallingSeen s.inp then ts ++ [s.inp.sample.ticks] else ts) ∧
      (t.eng.st = .success ↔ s.eng.FallingSeen s.inp ∧ ts.length = 40)

/-! ## The checksum validator and the converter -/

/-- R110, R63: FIELDS splits a frame into five bytes, from which it can be put together again. That the
row, executed by itself, shows its result and changes nothing else is the model's choice (log 4). -/
def Obligations.FieldsSplitTheFrame : Prop :=
  ∀ (frame : FrameWord) (s : State), ∃ f : Fields,
    exec (.fields frame) s = .next { s with result := .fields f } ∧
    f.humidityInt.toNat = frame.toNat / 2 ^ 32 ∧
    f.humidityFrac.toNat = frame.toNat / 2 ^ 24 % 256 ∧
    f.temperatureInt.toNat = frame.toNat / 2 ^ 16 % 256 ∧
    f.temperatureFrac.toNat = frame.toNat / 2 ^ 8 % 256 ∧
    f.checksum.toNat = frame.toNat % 256 ∧
    frame.toNat = (((f.humidityInt.toNat * 256 + f.humidityFrac.toNat) * 256 +
      f.temperatureInt.toNat) * 256 + f.temperatureFrac.toNat) * 256 + f.checksum.toNat

/-- R111: CHKSUM accepts exactly when the checksum byte is the sum of the four others mod 256. That the
row, executed by itself, shows its bit and changes nothing else is the model's choice (log 4). -/
def Obligations.ChecksumAcceptsExactlyTheSum : Prop :=
  ∀ (hI hF tI tF ck : Byte) (s : State), ∃ b : Bool,
    exec (.chksum hI hF tI tF ck) s = .next { s with result := .bit b } ∧
    (b = true ↔ ck.toNat = (hI.toNat + hF.toNat + tI.toNat + tF.toNat) % 256)

/-- R111: the checksum catches every single-bit error: flipping any one bit of a valid frame makes it
invalid. -/
def Obligations.ChecksumCatchesSingleBitErrors : Prop :=
  ∀ (frame : FrameWord) (p : Nat), p < 40 → (readingOfFrame frame).isValid = true →
    (readingOfFrame (frame ^^^ (1#40 <<< p))).isValid = false

/-- R111, R117: errors that compensate each other in two different data bytes, whichever two they are,
are not caught. With `b` the four data bytes in wire order, adding one to byte `i` and taking one from
byte `j` changes at least those two bytes and no verdict, which is that of the exact sum of the sent
bytes; and where neither byte wraps, the exact sum is the same. That CHKSUM, executed by itself, shows
its bit and changes nothing else is the model's choice (log 4). -/
def Obligations.ChecksumMissesCompensatingErrors : Prop :=
  ∀ (b : Fin 4 → Byte) (ck : Byte) (i j : Fin 4) (s : State), i ≠ j →
    ∃ (b' : Fin 4 → Byte) (v : Bool),
      b' i = b i + 1#8 ∧ b' j = b j - 1#8 ∧ (∀ k, k ≠ i → k ≠ j → b' k = b k) ∧
      b' i ≠ b i ∧ b' j ≠ b j ∧
      exec (.chksum (b 0) (b 1) (b 2) (b 3) ck) s = .next { s with result := .bit v } ∧
      exec (.chksum (b' 0) (b' 1) (b' 2) (b' 3) ck) s = .next { s with result := .bit v } ∧
      (v = true ↔
        ck.toNat = ((b 0).toNat + (b 1).toNat + (b 2).toNat + (b 3).toNat) % 256) ∧
      (b i ≠ 255#8 → b j ≠ 0#8 →
        (byteSum (b' 0) (b' 1) (b' 2) (b' 3)).toNat =
          (b 0).toNat + (b 1).toNat + (b 2).toNat + (b 3).toNat)

/-- R112: CONVERT gives ten times the integer byte plus the fraction byte, exactly, never above 2805.
That the row, executed by itself, shows its result and changes nothing else is the model's choice
(log 4). -/
def Obligations.ConvertGivesExactTenths : Prop :=
  ∀ (hI hF tI tF : Byte) (s : State), ∃ h t : Tenths,
    exec (.convert hI hF tI tF) s = .next { s with result := .tenths h t } ∧
    h.toNat = 10 * hI.toNat + hF.toNat ∧ t.toNat = 10 * tI.toNat + tF.toNat ∧
    h.toNat ≤ 2805 ∧ t.toNat ≤ 2805

/-- R113, R115: the record of a complete frame and the record of a timeout. That the two rows, executed
by themselves, show their record and change nothing else is the model's choice (log 4). -/
def Obligations.ReadingRecordsFollowTheRules : Prop :=
  (∀ (frame : FrameWord) (s : State),
    exec (.readingOfFrame frame) s =
      .next { s with result := .record (recordByRule frame) }) ∧
  (∀ s : State,
    exec .readingOfTimeout s = .next { s with result := .record recordOfTimeoutByRule })

/-- R70, R63: a word of format F40 gives the record of its five fields; that the word, executed by
itself, shows that record and changes no register is the model's choice (log 6). -/
def Obligations.FrameWordGivesItsRecord : Prop :=
  ∀ (h g t u c : Byte) (s : State),
    exec (.f40 h g t u c) s = .next { s with
      result := .record (if c.toNat = (h.toNat + g.toNat + t.toNat + u.toNat) % 256 then
        { timedOut := false, isValid := true
          humTenths := BitVec.ofNat 12 (10 * h.toNat + g.toNat)
          tempTenths := BitVec.ofNat 12 (10 * t.toNat + u.toNat) }
      else { timedOut := false, isValid := false, humTenths := 0#12, tempTenths := 0#12 }) }

/-! ## The retry policy and the host's command -/

/-- R120: IDLE changes no register, by itself and in a step. -/
def Obligations.IdleChangesNothing : Prop :=
  (∀ s : State, exec .idle s = .next s) ∧
  (∀ s : State, s.inp.rst = false → s.inp.start = false → s.eng.st = .idle →
    ∃ t, step s = .next t ∧ t.eng = s.eng ∧ t.result = s.result)

/-- R121: GETREADING accepts a command in Idle and begins the first attempt in the same step. -/
def Obligations.GetReadingAcceptsACommand : Prop :=
  ∀ s : State, s.eng.st = .idle → s.inp.sample.tps ≠ 0#64 → 1 ≤ s.inp.maxRetries.toInt →
    exec .getreading s = .next { s with
      eng := ({ s.eng with maxr := s.inp.maxRetries, attempt := 0#32, done := false } : Engine).begun
        s.inp }

/-- R64, R74, R121: a command word does what GETREADING does, with its own operand (log 6), and
GETREADING_DEFAULT does it with 20. -/
def Obligations.CommandWordsAcceptACommand : Prop :=
  ∀ s : State, s.eng.st = .idle → s.inp.sample.tps ≠ 0#64 →
    (∀ n : Word32, 1 ≤ n.toInt →
      exec (.cmd n) s = .next { s with
        eng := ({ s.eng with maxr := n, attempt := 0#32, done := false } : Engine).begun s.inp }) ∧
    exec .getreadingDefault s = .next { s with
      eng := ({ s.eng with maxr := 20#32, attempt := 0#32, done := false } : Engine).begun s.inp }

/-- R64, R74, R121: a step with the command signals presented does what the command word of that
operand does: `start` with `max_retries` = n in Idle is CMD n, and with 20 it is GETREADING_DEFAULT
too. That a command word has an execution of its own, and that CMD n executed is GETREADING n, is the
model's choice (log 6); so is the presentation of the next inputs after it (log 2). -/
def Obligations.CommandSignalsAreTheCommandWord : Prop :=
  ∀ s : State, s.inp.rst = false → s.inp.start = true → s.eng.st = .idle →
    step s = finishStep (exec (.cmd s.inp.maxRetries) s) ∧
    (s.inp.maxRetries = 20#32 → step s = finishStep (exec .getreadingDefault s))

/-- R122: the two refused commands: a strobe in Idle with a budget that is not positive, and a strobe
in any other state. -/
def Obligations.RefusedCommands : Prop :=
  ∀ s : State, s.inp.rst = false → s.inp.start = true →
    (s.eng.st = .idle → s.inp.maxRetries.toInt ≤ 0 → step s = .refused .budgetNotPositive) ∧
    (s.eng.st ≠ .idle → step s = .refused .commandWhileBusy)

/-- R122: the same of the three spellings of a command executed by themselves (log 6, log 14). -/
def Obligations.RefusedCommandWords : Prop :=
  (∀ s : State, s.eng.st = .idle → s.inp.maxRetries.toInt ≤ 0 →
    exec .getreading s = .refused .budgetNotPositive) ∧
  (∀ (s : State) (n : Word32), s.eng.st = .idle → n.toInt ≤ 0 →
    exec (.cmd n) s = .refused .budgetNotPositive) ∧
  (∀ (s : State) (n : Word32), s.eng.st ≠ .idle →
    exec (.cmd n) s = .refused .commandWhileBusy ∧
    exec .getreading s = .refused .commandWhileBusy ∧
    exec .getreadingDefault s = .refused .commandWhileBusy)

/-- R123: RETIRE writes the Reading and returns it, or begins the next attempt in the same step. The
attempt's index is `ATTEMPT` + 1 (free only past 2^32 − 1, log 9, where no run comes). -/
def Obligations.RetireReturnsOrRetries : Prop :=
  ∀ (rd : ReadingRecord) (s : State), ∃ a : Word32,
    (s.eng.attempt.toNat + 1 < 2 ^ 32 → a.toNat = s.eng.attempt.toNat + 1) ∧
    (rd.isValid = true ∨ s.eng.attempt.toNat + 1 = s.eng.maxr.toNat →
      exec (.retire rd) s = .next { s with
        eng := { s.eng with
          attempt := a, rdTimedOut := rd.timedOut, rdIsValid := rd.isValid
          rdHumTenths := rd.humTenths, rdTempTenths := rd.tempTenths, rdRetryCount := a
          done := true, st := .idle } }) ∧
    (rd.isValid = false → s.eng.attempt.toNat + 1 ≠ s.eng.maxr.toNat →
      s.inp.sample.tps ≠ 0#64 →
      exec (.retire rd) s = .next { s with
        eng := ({ s.eng with
          attempt := a, rdTimedOut := rd.timedOut, rdIsValid := rd.isValid
          rdHumTenths := rd.humTenths, rdTempTenths := rd.tempTenths
          rdRetryCount := a } : Engine).begun s.inp })

/-- R124: let the attempts of a command retire with the records of `ps` in order, each in a step with
its own inputs; the command returns record number `k` with `retryCount` = `k`, `k` being the first
valid one or the budget. RETIRE is executed by itself for each attempt, in states whose `ST` does not
select it, which is the model's choice (log 4, log 14). -/
def Obligations.CommandReturnsTheFirstValidRecord : Prop :=
  ∀ (s : State) (ps : List (Input × ReadingRecord)) (k : Nat) (x : Input) (rd : ReadingRecord),
    s.eng.attempt = 0#32 → s.eng.done = false → ps[k]? = some (x, rd) →
    (∀ j < k, ∀ p, ps[j]? = some p → p.2.isValid = false ∧ p.1.sample.tps ≠ 0#64) →
    k + 1 ≤ s.eng.maxr.toNat → (rd.isValid = true ∨ k + 1 = s.eng.maxr.toNat) →
    ∃ t, retireAll ps s = .next t ∧ t.eng.done = true ∧ t.eng.st = .idle ∧
      t.eng.reading =
        { timedOut := rd.timedOut, isValid := rd.isValid, humTenths := rd.humTenths
          tempTenths := rd.tempTenths, retryCount := BitVec.ofNat 32 (k + 1) } ∧
      t.eng.attempt.toNat = k + 1

/-- R68, R32, R53: a read of the RD signals shows the five Reading registers and changes none. -/
def Obligations.ReadingSignalsShowTheRegisters : Prop :=
  ∀ s : State,
    exec .rd s =
      .next { s with
        result := .reading ⟨s.eng.rdTimedOut, s.eng.rdIsValid, s.eng.rdHumTenths,
          s.eng.rdTempTenths, s.eng.rdRetryCount⟩ } ∧
    readingOfRdWord s.eng.rdWord = s.eng.reading ∧
    (s.eng.busy = true ↔ s.eng.st ≠ .idle)

/-! ## Rules about the whole machine -/

/-- R33, R123: with `rst` released only a retiring step writes the Reading registers, and only there
does `DONE` become 1. -/
def Obligations.OnlyRetirementWritesTheReading : Prop :=
  ∀ s t : State, s.inp.rst = false → step s = .next t →
    s.eng.st ≠ .success → s.eng.st ≠ .timedOut →
    t.eng.reading = s.eng.reading ∧ (t.eng.done = true → s.eng.done = true)

/-- R27, R46, R178: the threshold is computed once per attempt. With `rst` released no step of a
waiting state writes it, whatever `TicksPerSecond` is, and no step at all but one that begins an
attempt, which writes THRESH of that step's frequency. -/
def Obligations.ThresholdIsComputedOncePerAttempt : Prop :=
  ∀ s t : State, s.inp.rst = false → step s = .next t →
    (s.BeginsAttempt →
      t.eng.threshold.toNat = (110 * s.inp.sample.tps.toNat + 500000) / 1000000) ∧
    (¬s.BeginsAttempt → t.eng.threshold = s.eng.threshold)

/-- R90: no cancellation: with `rst` released a busy engine returns to Idle only by a retirement that
sets `DONE`, and `MAXR` stays what the command gave. -/
def Obligations.BusyEndsOnlyByRetirement : Prop :=
  ∀ s t : State, s.inp.rst = false → s.eng.st ≠ .idle → step s = .next t →
    t.eng.maxr = s.eng.maxr ∧
    (t.eng.st = .idle →
      (s.eng.st = .success ∨ s.eng.st = .timedOut) ∧ t.eng.done = true ∧
      (t.eng.rdIsValid = true ∨ s.eng.attempt.toNat + 1 = s.eng.maxr.toNat))

/-- R120, R33: any number of steps without a command leave the engine idle and every register, the
returned Reading and `DONE` among them, as they were. -/
def Obligations.ResultStaysUntilTheNextCommand : Prop :=
  ∀ (s : State) (xs rest : List Input), s.eng.st = .idle → s.inp :: s.script = xs ++ rest →
    (∀ x ∈ xs, x.start = false ∧ x.rst = false) →
    ∃ t, core.run xs.length s = .next t ∧ t.eng = s.eng

/-- R83, R88, R176: the hold lasts through every step whose count is not past the deadline, with the
line driven Low and no register changed, and ends in the first one whose count is. -/
def Obligations.HoldEndsAtTheFirstLateSample : Prop :=
  ∀ (s : State) (xs rest : List Input) (x : Input), s.eng.st = .signalingReset →
    s.inp :: s.script = xs ++ x :: rest →
    (∀ y ∈ xs, y.start = false ∧ y.rst = false ∧ y.sample.millis ≤ s.eng.deadline) →
    x.start = false → x.rst = false → x.sample.millis > s.eng.deadline →
    (∀ k ≤ xs.length, ∃ t, core.run k s = .next t ∧ t.eng = s.eng) ∧
    ∃ t, core.run (xs.length + 1) s = .next t ∧
      t.eng = { s.eng with
        pinMode := .input, prevLevel := .high
        deadline := x.sample.millis + 1#64, st := .awaitingResponse }

/-- R49, U9, U10: an input field that an operation does not use does not influence it: two inputs
that agree on the fields R49 lists for the operation give the same registers. -/
def Obligations.UnusedSampleFieldsHaveNoInfluence : Prop :=
  ∀ (s : State) (x : Input),
    (∃ t, exec .idle { s with inp := x } = .next t ∧ t.eng = s.eng) ∧
    (x.sample.millis = s.inp.sample.millis →
      ∃ t u, exec .hold s = .next t ∧ exec .hold { s with inp := x } = .next u ∧
        t.eng = u.eng) ∧
    (x.sample.millis = s.inp.sample.millis → x.sample.lvl = s.inp.sample.lvl →
      ∃ t u, exec .await s = .next t ∧ exec .await { s with inp := x } = .next u ∧
        t.eng = u.eng) ∧
    (x.sample.millis = s.inp.sample.millis → x.sample.lvl = s.inp.sample.lvl →
      (s.eng.FallingSeen s.inp → x.sample.ticks = s.inp.sample.ticks) →
      ∃ t u, exec .capture s = .next t ∧ exec .capture { s with inp := x } = .next u ∧
        t.eng = u.eng) ∧
    (x.sample.millis = s.inp.sample.millis → x.sample.tps = s.inp.sample.tps →
      x.sample.tps ≠ 0#64 →
      (s.eng.st = .idle → 1 ≤ s.inp.maxRetries.toInt → x.maxRetries = s.inp.maxRetries →
        ∃ t u, exec .getreading s = .next t ∧ exec .getreading { s with inp := x } = .next u ∧
          t.eng = u.eng) ∧
      (∃ t u, exec .beginAttempt s = .next t ∧ exec .beginAttempt { s with inp := x } = .next u ∧
        t.eng = u.eng) ∧
      (∃ t u, exec .retireS s = .next t ∧ exec .retireS { s with inp := x } = .next u ∧
        t.eng = u.eng) ∧
      (∃ t u, exec .retireT s = .next t ∧ exec .retireT { s with inp := x } = .next u ∧
        t.eng = u.eng))

/-- R125: nothing an attempt computed is carried into the next but `ATTEMPT`, `MAXR` and the Reading:
two engines that begin an attempt with the same inputs agree on every register of the attempt, and
after the release on `PREV_LEVEL` too. -/
def Obligations.AttemptsAreIndependent : Prop :=
  ∀ (s u : State) (y : Input), s.inp = u.inp → s.inp.sample.tps ≠ 0#64 →
    ∃ t v, exec .beginAttempt s = .next t ∧ exec .beginAttempt u = .next v ∧
      t.eng.frame = v.eng.frame ∧ t.eng.edgeCnt = v.eng.edgeCnt ∧
      t.eng.prevTime = v.eng.prevTime ∧ t.eng.threshold = v.eng.threshold ∧
      t.eng.deadline = v.eng.deadline ∧ t.eng.pinMode = v.eng.pinMode ∧
      t.eng.pinOut = v.eng.pinOut ∧ t.eng.st = v.eng.st ∧
      (y.sample.millis > t.eng.deadline →
        ∃ t' v', exec .hold { t with inp := y } = .next t' ∧
          exec .hold { v with inp := y } = .next v' ∧
          t'.eng.prevLevel = v'.eng.prevLevel ∧ t'.eng.deadline = v'.eng.deadline ∧
          t'.eng.st = v'.eng.st)

/-- R30, R43, R59: the engine drives the line only in SignalingReset, and then Low, in every state
that meets the invariants of R35. -/
def Obligations.LineIsDrivenLowOnlyInSignalingReset : Prop :=
  ∀ s t : State, s.eng.Inv → step s = .next t →
    (t.eng.st = .signalingReset → t.eng.lineDrive = some .low) ∧
    (t.eng.st ≠ .signalingReset → t.eng.lineDrive = none)

/-- R136: every step that retires an attempt shows one of the three outcome codes, and the values of
a failed attempt are zero. -/
def Obligations.RetirementShowsOneOutcomeCode : Prop :=
  ∀ s t : State, s.inp.rst = false → step s = .next t →
    (s.eng.st = .success →
      (FrameValid s.eng.frame ∧ t.eng.outcomeCode = (false, true)) ∨
      (¬FrameValid s.eng.frame ∧ t.eng.outcomeCode = (false, false) ∧
        t.eng.rdHumTenths = 0#12 ∧ t.eng.rdTempTenths = 0#12)) ∧
    (s.eng.st = .timedOut →
      t.eng.outcomeCode = (true, false) ∧ t.eng.rdHumTenths = 0#12 ∧ t.eng.rdTempTenths = 0#12)

/-! ## The codes of the pin -/

/-- R67: the level code and the mode code, both ways, on the sample's level and on the three registers
that hold a level or a mode. -/
def Obligations.LevelAndModeCodes : Prop :=
  Level.low.code = 0#1 ∧ Level.high.code = 1#1 ∧
  PinMode.input.code = 0#1 ∧ PinMode.output.code = 1#1 ∧
  (∀ l : Level, Level.ofCode l.code = l) ∧ (∀ m : PinMode, PinMode.ofCode m.code = m) ∧
  (∀ x : Input, lvlBit x = if x.sample.lvl = .high then 1#1 else 0#1) ∧
  ∀ e : Engine,
    (e.pinOutBit = if e.pinOut = .high then 1#1 else 0#1) ∧
    (e.prevLevelBit = if e.prevLevel = .high then 1#1 else 0#1) ∧
    (e.pinModeBit = if e.pinMode = .output then 1#1 else 0#1)

/-- R30, R35, R67: after every step from a state that meets the invariants the engine's two bits to the
pin are `PIN_OUT` = 0, always, and `PIN_MODE` = 1 exactly in SignalingReset. -/
def Obligations.PinBitsFollowTheState : Prop :=
  ∀ s t : State, s.eng.Inv → step s = .next t →
    t.eng.pinOutBit = 0#1 ∧ (t.eng.pinModeBit = 1#1 ↔ t.eng.st = .signalingReset)
end

