-- ==== Sys2Proof/Laws/State.lean ====
section
/-! SUPPORT. One lemma per field per register update, so that no proof unfolds a record update. -/

namespace Sys2Proof.Machine

/-! ## `setPinMode` -/

@[simp] theorem Engine.setPinMode_st (e : Engine) (m : PinMode) : (e.setPinMode m).st = e.st := rfl
@[simp] theorem Engine.setPinMode_frame (e : Engine) (m : PinMode) :
    (e.setPinMode m).frame = e.frame := rfl
@[simp] theorem Engine.setPinMode_edgeCnt (e : Engine) (m : PinMode) :
    (e.setPinMode m).edgeCnt = e.edgeCnt := rfl
@[simp] theorem Engine.setPinMode_prevLevel (e : Engine) (m : PinMode) :
    (e.setPinMode m).prevLevel = e.prevLevel := rfl
@[simp] theorem Engine.setPinMode_prevTime (e : Engine) (m : PinMode) :
    (e.setPinMode m).prevTime = e.prevTime := rfl
@[simp] theorem Engine.setPinMode_deadline (e : Engine) (m : PinMode) :
    (e.setPinMode m).deadline = e.deadline := rfl
@[simp] theorem Engine.setPinMode_threshold (e : Engine) (m : PinMode) :
    (e.setPinMode m).threshold = e.threshold := rfl
@[simp] theorem Engine.setPinMode_attempt (e : Engine) (m : PinMode) :
    (e.setPinMode m).attempt = e.attempt := rfl
@[simp] theorem Engine.setPinMode_maxr (e : Engine) (m : PinMode) :
    (e.setPinMode m).maxr = e.maxr := rfl
@[simp] theorem Engine.setPinMode_pinMode (e : Engine) (m : PinMode) :
    (e.setPinMode m).pinMode = m := rfl
@[simp] theorem Engine.setPinMode_pinOut (e : Engine) (m : PinMode) :
    (e.setPinMode m).pinOut = e.pinOut := rfl
@[simp] theorem Engine.setPinMode_done (e : Engine) (m : PinMode) :
    (e.setPinMode m).done = e.done := rfl
@[simp] theorem Engine.setPinMode_rdTimedOut (e : Engine) (m : PinMode) :
    (e.setPinMode m).rdTimedOut = e.rdTimedOut := rfl
@[simp] theorem Engine.setPinMode_rdIsValid (e : Engine) (m : PinMode) :
    (e.setPinMode m).rdIsValid = e.rdIsValid := rfl
@[simp] theorem Engine.setPinMode_rdHumTenths (e : Engine) (m : PinMode) :
    (e.setPinMode m).rdHumTenths = e.rdHumTenths := rfl
@[simp] theorem Engine.setPinMode_rdTempTenths (e : Engine) (m : PinMode) :
    (e.setPinMode m).rdTempTenths = e.rdTempTenths := rfl
@[simp] theorem Engine.setPinMode_rdRetryCount (e : Engine) (m : PinMode) :
    (e.setPinMode m).rdRetryCount = e.rdRetryCount := rfl

/-! ## `pinWrite` -/

@[simp] theorem Engine.pinWrite_st (e : Engine) (v : Level) : (e.pinWrite v).st = e.st := rfl
@[simp] theorem Engine.pinWrite_frame (e : Engine) (v : Level) :
    (e.pinWrite v).frame = e.frame := rfl
@[simp] theorem Engine.pinWrite_edgeCnt (e : Engine) (v : Level) :
    (e.pinWrite v).edgeCnt = e.edgeCnt := rfl
@[simp] theorem Engine.pinWrite_prevLevel (e : Engine) (v : Level) :
    (e.pinWrite v).prevLevel = e.prevLevel := rfl
@[simp] theorem Engine.pinWrite_prevTime (e : Engine) (v : Level) :
    (e.pinWrite v).prevTime = e.prevTime := rfl
@[simp] theorem Engine.pinWrite_deadline (e : Engine) (v : Level) :
    (e.pinWrite v).deadline = e.deadline := rfl
@[simp] theorem Engine.pinWrite_threshold (e : Engine) (v : Level) :
    (e.pinWrite v).threshold = e.threshold := rfl
@[simp] theorem Engine.pinWrite_attempt (e : Engine) (v : Level) :
    (e.pinWrite v).attempt = e.attempt := rfl
@[simp] theorem Engine.pinWrite_maxr (e : Engine) (v : Level) : (e.pinWrite v).maxr = e.maxr := rfl
@[simp] theorem Engine.pinWrite_pinMode (e : Engine) (v : Level) :
    (e.pinWrite v).pinMode = e.pinMode := rfl
@[simp] theorem Engine.pinWrite_pinOut (e : Engine) (v : Level) : (e.pinWrite v).pinOut = v := rfl
@[simp] theorem Engine.pinWrite_done (e : Engine) (v : Level) : (e.pinWrite v).done = e.done := rfl
@[simp] theorem Engine.pinWrite_rdTimedOut (e : Engine) (v : Level) :
    (e.pinWrite v).rdTimedOut = e.rdTimedOut := rfl
@[simp] theorem Engine.pinWrite_rdIsValid (e : Engine) (v : Level) :
    (e.pinWrite v).rdIsValid = e.rdIsValid := rfl
@[simp] theorem Engine.pinWrite_rdHumTenths (e : Engine) (v : Level) :
    (e.pinWrite v).rdHumTenths = e.rdHumTenths := rfl
@[simp] theorem Engine.pinWrite_rdTempTenths (e : Engine) (v : Level) :
    (e.pinWrite v).rdTempTenths = e.rdTempTenths := rfl
@[simp] theorem Engine.pinWrite_rdRetryCount (e : Engine) (v : Level) :
    (e.pinWrite v).rdRetryCount = e.rdRetryCount := rfl

/-! ## `startAttempt` -/

@[simp] theorem Engine.startAttempt_st (e : Engine) (x : Input) :
    (e.startAttempt x).st = .signalingReset := rfl
@[simp] theorem Engine.startAttempt_frame (e : Engine) (x : Input) :
    (e.startAttempt x).frame = 0#40 := rfl
@[simp] theorem Engine.startAttempt_edgeCnt (e : Engine) (x : Input) :
    (e.startAttempt x).edgeCnt = 0#6 := rfl
@[simp] theorem Engine.startAttempt_prevLevel (e : Engine) (x : Input) :
    (e.startAttempt x).prevLevel = e.prevLevel := rfl
@[simp] theorem Engine.startAttempt_prevTime (e : Engine) (x : Input) :
    (e.startAttempt x).prevTime = 0#64 := rfl
@[simp] theorem Engine.startAttempt_deadline (e : Engine) (x : Input) :
    (e.startAttempt x).deadline = deadlineAfter (nowMillis x) Config.tHoldMs := rfl
@[simp] theorem Engine.startAttempt_threshold (e : Engine) (x : Input) :
    (e.startAttempt x).threshold = thresh (ticksPerSecond x) := rfl
@[simp] theorem Engine.startAttempt_attempt (e : Engine) (x : Input) :
    (e.startAttempt x).attempt = e.attempt := rfl
@[simp] theorem Engine.startAttempt_maxr (e : Engine) (x : Input) :
    (e.startAttempt x).maxr = e.maxr := rfl
@[simp] theorem Engine.startAttempt_pinMode (e : Engine) (x : Input) :
    (e.startAttempt x).pinMode = .output := rfl
@[simp] theorem Engine.startAttempt_pinOut (e : Engine) (x : Input) :
    (e.startAttempt x).pinOut = .low := rfl
@[simp] theorem Engine.startAttempt_done (e : Engine) (x : Input) :
    (e.startAttempt x).done = e.done := rfl
@[simp] theorem Engine.startAttempt_rdTimedOut (e : Engine) (x : Input) :
    (e.startAttempt x).rdTimedOut = e.rdTimedOut := rfl
@[simp] theorem Engine.startAttempt_rdIsValid (e : Engine) (x : Input) :
    (e.startAttempt x).rdIsValid = e.rdIsValid := rfl
@[simp] theorem Engine.startAttempt_rdHumTenths (e : Engine) (x : Input) :
    (e.startAttempt x).rdHumTenths = e.rdHumTenths := rfl
@[simp] theorem Engine.startAttempt_rdTempTenths (e : Engine) (x : Input) :
    (e.startAttempt x).rdTempTenths = e.rdTempTenths := rfl
@[simp] theorem Engine.startAttempt_rdRetryCount (e : Engine) (x : Input) :
    (e.startAttempt x).rdRetryCount = e.rdRetryCount := rfl

/-! ## `recordAttempt` -/

@[simp] theorem Engine.recordAttempt_st (e : Engine) (rd : ReadingRecord) :
    (e.recordAttempt rd).st = e.st := rfl
@[simp] theorem Engine.recordAttempt_frame (e : Engine) (rd : ReadingRecord) :
    (e.recordAttempt rd).frame = e.frame := rfl
@[simp] theorem Engine.recordAttempt_edgeCnt (e : Engine) (rd : ReadingRecord) :
    (e.recordAttempt rd).edgeCnt = e.edgeCnt := rfl
@[simp] theorem Engine.recordAttempt_prevLevel (e : Engine) (rd : ReadingRecord) :
    (e.recordAttempt rd).prevLevel = e.prevLevel := rfl
@[simp] theorem Engine.recordAttempt_prevTime (e : Engine) (rd : ReadingRecord) :
    (e.recordAttempt rd).prevTime = e.prevTime := rfl
@[simp] theorem Engine.recordAttempt_deadline (e : Engine) (rd : ReadingRecord) :
    (e.recordAttempt rd).deadline = e.deadline := rfl
@[simp] theorem Engine.recordAttempt_threshold (e : Engine) (rd : ReadingRecord) :
    (e.recordAttempt rd).threshold = e.threshold := rfl
@[simp] theorem Engine.recordAttempt_attempt (e : Engine) (rd : ReadingRecord) :
    (e.recordAttempt rd).attempt = incAttempt e.attempt := rfl
@[simp] theorem Engine.recordAttempt_maxr (e : Engine) (rd : ReadingRecord) :
    (e.recordAttempt rd).maxr = e.maxr := rfl
@[simp] theorem Engine.recordAttempt_pinMode (e : Engine) (rd : ReadingRecord) :
    (e.recordAttempt rd).pinMode = e.pinMode := rfl
@[simp] theorem Engine.recordAttempt_pinOut (e : Engine) (rd : ReadingRecord) :
    (e.recordAttempt rd).pinOut = e.pinOut := rfl
@[simp] theorem Engine.recordAttempt_done (e : Engine) (rd : ReadingRecord) :
    (e.recordAttempt rd).done = e.done := rfl
@[simp] theorem Engine.recordAttempt_rdTimedOut (e : Engine) (rd : ReadingRecord) :
    (e.recordAttempt rd).rdTimedOut = rd.timedOut := rfl
@[simp] theorem Engine.recordAttempt_rdIsValid (e : Engine) (rd : ReadingRecord) :
    (e.recordAttempt rd).rdIsValid = rd.isValid := rfl
@[simp] theorem Engine.recordAttempt_rdHumTenths (e : Engine) (rd : ReadingRecord) :
    (e.recordAttempt rd).rdHumTenths = rd.humTenths := rfl
@[simp] theorem Engine.recordAttempt_rdTempTenths (e : Engine) (rd : ReadingRecord) :
    (e.recordAttempt rd).rdTempTenths = rd.tempTenths := rfl
@[simp] theorem Engine.recordAttempt_rdRetryCount (e : Engine) (rd : ReadingRecord) :
    (e.recordAttempt rd).rdRetryCount = incAttempt e.attempt := rfl

/-! ## `finish` -/

@[simp] theorem Engine.finish_st (e : Engine) : (e.finish).st = .idle := rfl
@[simp] theorem Engine.finish_frame (e : Engine) : (e.finish).frame = e.frame := rfl
@[simp] theorem Engine.finish_edgeCnt (e : Engine) : (e.finish).edgeCnt = e.edgeCnt := rfl
@[simp] theorem Engine.finish_prevLevel (e : Engine) : (e.finish).prevLevel = e.prevLevel := rfl
@[simp] theorem Engine.finish_prevTime (e : Engine) : (e.finish).prevTime = e.prevTime := rfl
@[simp] theorem Engine.finish_deadline (e : Engine) : (e.finish).deadline = e.deadline := rfl
@[simp] theorem Engine.finish_threshold (e : Engine) : (e.finish).threshold = e.threshold := rfl
@[simp] theorem Engine.finish_attempt (e : Engine) : (e.finish).attempt = e.attempt := rfl
@[simp] theorem Engine.finish_maxr (e : Engine) : (e.finish).maxr = e.maxr := rfl
@[simp] theorem Engine.finish_pinMode (e : Engine) : (e.finish).pinMode = e.pinMode := rfl
@[simp] theorem Engine.finish_pinOut (e : Engine) : (e.finish).pinOut = e.pinOut := rfl
@[simp] theorem Engine.finish_done (e : Engine) : (e.finish).done = true := rfl
@[simp] theorem Engine.finish_rdTimedOut (e : Engine) : (e.finish).rdTimedOut = e.rdTimedOut := rfl
@[simp] theorem Engine.finish_rdIsValid (e : Engine) : (e.finish).rdIsValid = e.rdIsValid := rfl
@[simp] theorem Engine.finish_rdHumTenths (e : Engine) :
    (e.finish).rdHumTenths = e.rdHumTenths := rfl
@[simp] theorem Engine.finish_rdTempTenths (e : Engine) :
    (e.finish).rdTempTenths = e.rdTempTenths := rfl
@[simp] theorem Engine.finish_rdRetryCount (e : Engine) :
    (e.finish).rdRetryCount = e.rdRetryCount := rfl

/-! ## `acceptCommand` -/

@[simp] theorem Engine.acceptCommand_st (e : Engine) (n : Word32) :
    (e.acceptCommand n).st = e.st := rfl
@[simp] theorem Engine.acceptCommand_frame (e : Engine) (n : Word32) :
    (e.acceptCommand n).frame = e.frame := rfl
@[simp] theorem Engine.acceptCommand_edgeCnt (e : Engine) (n : Word32) :
    (e.acceptCommand n).edgeCnt = e.edgeCnt := rfl
@[simp] theorem Engine.acceptCommand_prevLevel (e : Engine) (n : Word32) :
    (e.acceptCommand n).prevLevel = e.prevLevel := rfl
@[simp] theorem Engine.acceptCommand_prevTime (e : Engine) (n : Word32) :
    (e.acceptCommand n).prevTime = e.prevTime := rfl
@[simp] theorem Engine.acceptCommand_deadline (e : Engine) (n : Word32) :
    (e.acceptCommand n).deadline = e.deadline := rfl
@[simp] theorem Engine.acceptCommand_threshold (e : Engine) (n : Word32) :
    (e.acceptCommand n).threshold = e.threshold := rfl
@[simp] theorem Engine.acceptCommand_attempt (e : Engine) (n : Word32) :
    (e.acceptCommand n).attempt = 0#32 := rfl
@[simp] theorem Engine.acceptCommand_maxr (e : Engine) (n : Word32) :
    (e.acceptCommand n).maxr = n := rfl
@[simp] theorem Engine.acceptCommand_pinMode (e : Engine) (n : Word32) :
    (e.acceptCommand n).pinMode = e.pinMode := rfl
@[simp] theorem Engine.acceptCommand_pinOut (e : Engine) (n : Word32) :
    (e.acceptCommand n).pinOut = e.pinOut := rfl
@[simp] theorem Engine.acceptCommand_done (e : Engine) (n : Word32) :
    (e.acceptCommand n).done = false := rfl
@[simp] theorem Engine.acceptCommand_rdTimedOut (e : Engine) (n : Word32) :
    (e.acceptCommand n).rdTimedOut = e.rdTimedOut := rfl
@[simp] theorem Engine.acceptCommand_rdIsValid (e : Engine) (n : Word32) :
    (e.acceptCommand n).rdIsValid = e.rdIsValid := rfl
@[simp] theorem Engine.acceptCommand_rdHumTenths (e : Engine) (n : Word32) :
    (e.acceptCommand n).rdHumTenths = e.rdHumTenths := rfl
@[simp] theorem Engine.acceptCommand_rdTempTenths (e : Engine) (n : Word32) :
    (e.acceptCommand n).rdTempTenths = e.rdTempTenths := rfl
@[simp] theorem Engine.acceptCommand_rdRetryCount (e : Engine) (n : Word32) :
    (e.acceptCommand n).rdRetryCount = e.rdRetryCount := rfl

/-! ## `release` -/

@[simp] theorem Engine.release_st (e : Engine) (x : Input) :
    (e.release x).st = .awaitingResponse := rfl
@[simp] theorem Engine.release_frame (e : Engine) (x : Input) : (e.release x).frame = e.frame := rfl
@[simp] theorem Engine.release_edgeCnt (e : Engine) (x : Input) :
    (e.release x).edgeCnt = e.edgeCnt := rfl
@[simp] theorem Engine.release_prevLevel (e : Engine) (x : Input) :
    (e.release x).prevLevel = .high := rfl
@[simp] theorem Engine.release_prevTime (e : Engine) (x : Input) :
    (e.release x).prevTime = e.prevTime := rfl
@[simp] theorem Engine.release_deadline (e : Engine) (x : Input) :
    (e.release x).deadline = deadlineAfter (nowMillis x) Config.tResponseMs := rfl
@[simp] theorem Engine.release_threshold (e : Engine) (x : Input) :
    (e.release x).threshold = e.threshold := rfl
@[simp] theorem Engine.release_attempt (e : Engine) (x : Input) :
    (e.release x).attempt = e.attempt := rfl
@[simp] theorem Engine.release_maxr (e : Engine) (x : Input) : (e.release x).maxr = e.maxr := rfl
@[simp] theorem Engine.release_pinMode (e : Engine) (x : Input) :
    (e.release x).pinMode = .input := rfl
@[simp] theorem Engine.release_pinOut (e : Engine) (x : Input) :
    (e.release x).pinOut = e.pinOut := rfl
@[simp] theorem Engine.release_done (e : Engine) (x : Input) : (e.release x).done = e.done := rfl
@[simp] theorem Engine.release_rdTimedOut (e : Engine) (x : Input) :
    (e.release x).rdTimedOut = e.rdTimedOut := rfl
@[simp] theorem Engine.release_rdIsValid (e : Engine) (x : Input) :
    (e.release x).rdIsValid = e.rdIsValid := rfl
@[simp] theorem Engine.release_rdHumTenths (e : Engine) (x : Input) :
    (e.release x).rdHumTenths = e.rdHumTenths := rfl
@[simp] theorem Engine.release_rdTempTenths (e : Engine) (x : Input) :
    (e.release x).rdTempTenths = e.rdTempTenths := rfl
@[simp] theorem Engine.release_rdRetryCount (e : Engine) (x : Input) :
    (e.release x).rdRetryCount = e.rdRetryCount := rfl

/-! ## `fallingEdge` -/

@[simp] theorem Engine.fallingEdge_st (e : Engine) (now : Word64) :
    (e.fallingEdge now).st = if e.edgeCnt.toNat + 1 = 41 then .success else e.st := rfl
@[simp] theorem Engine.fallingEdge_frame (e : Engine) (now : Word64) :
    (e.fallingEdge now).frame = e.frameAfterEdge now := rfl
@[simp] theorem Engine.fallingEdge_edgeCnt (e : Engine) (now : Word64) :
    (e.fallingEdge now).edgeCnt = incEdge e.edgeCnt := rfl
@[simp] theorem Engine.fallingEdge_prevLevel (e : Engine) (now : Word64) :
    (e.fallingEdge now).prevLevel = e.prevLevel := rfl
@[simp] theorem Engine.fallingEdge_prevTime (e : Engine) (now : Word64) :
    (e.fallingEdge now).prevTime = now := rfl
@[simp] theorem Engine.fallingEdge_deadline (e : Engine) (now : Word64) :
    (e.fallingEdge now).deadline = e.deadline := rfl
@[simp] theorem Engine.fallingEdge_threshold (e : Engine) (now : Word64) :
    (e.fallingEdge now).threshold = e.threshold := rfl
@[simp] theorem Engine.fallingEdge_attempt (e : Engine) (now : Word64) :
    (e.fallingEdge now).attempt = e.attempt := rfl
@[simp] theorem Engine.fallingEdge_maxr (e : Engine) (now : Word64) :
    (e.fallingEdge now).maxr = e.maxr := rfl
@[simp] theorem Engine.fallingEdge_pinMode (e : Engine) (now : Word64) :
    (e.fallingEdge now).pinMode = e.pinMode := rfl
@[simp] theorem Engine.fallingEdge_pinOut (e : Engine) (now : Word64) :
    (e.fallingEdge now).pinOut = e.pinOut := rfl
@[simp] theorem Engine.fallingEdge_done (e : Engine) (now : Word64) :
    (e.fallingEdge now).done = e.done := rfl
@[simp] theorem Engine.fallingEdge_rdTimedOut (e : Engine) (now : Word64) :
    (e.fallingEdge now).rdTimedOut = e.rdTimedOut := rfl
@[simp] theorem Engine.fallingEdge_rdIsValid (e : Engine) (now : Word64) :
    (e.fallingEdge now).rdIsValid = e.rdIsValid := rfl
@[simp] theorem Engine.fallingEdge_rdHumTenths (e : Engine) (now : Word64) :
    (e.fallingEdge now).rdHumTenths = e.rdHumTenths := rfl
@[simp] theorem Engine.fallingEdge_rdTempTenths (e : Engine) (now : Word64) :
    (e.fallingEdge now).rdTempTenths = e.rdTempTenths := rfl
@[simp] theorem Engine.fallingEdge_rdRetryCount (e : Engine) (now : Word64) :
    (e.fallingEdge now).rdRetryCount = e.rdRetryCount := rfl

/-! ## `State.advance` -/

@[simp] theorem State.advance_eng (s : State) : s.advance.eng = s.eng := rfl
@[simp] theorem State.advance_inp (s : State) : s.advance.inp = s.nextInput := rfl
@[simp] theorem State.advance_script (s : State) : s.advance.script = s.script.tail := rfl
@[simp] theorem State.advance_stepNo (s : State) : s.advance.stepNo = s.stepNo + 1 := rfl
@[simp] theorem State.advance_result (s : State) : s.advance.result = s.result := rfl

/-! ## `State.resetEngine` -/

@[simp] theorem State.resetEngine_eng (s : State) : s.resetEngine.eng = Engine.reset := rfl
@[simp] theorem State.resetEngine_inp (s : State) : s.resetEngine.inp = s.inp := rfl
@[simp] theorem State.resetEngine_script (s : State) : s.resetEngine.script = s.script := rfl
@[simp] theorem State.resetEngine_stepNo (s : State) : s.resetEngine.stepNo = s.stepNo := rfl
@[simp] theorem State.resetEngine_result (s : State) : s.resetEngine.result = s.result := rfl

end Sys2Proof.Machine
end

