-- ==== Sys2Proof/Laws/Ops.lean ====
section
/-! SUPPORT. What each shared operation can do, said once: one lemma per operation, to be cited
instead of unfolding it. -/

namespace Sys2Proof.Machine

/-! ## Codes -/

@[simp] theorem Level.ofCode_code (l : Level) : Level.ofCode l.code = l := by cases l <;> rfl

@[simp] theorem Level.code_ofCode (c : BitVec 1) : (Level.ofCode c).code = c := by
  revert c; decide

@[simp] theorem PinMode.ofCode_code (m : PinMode) : PinMode.ofCode m.code = m := by
  cases m <;> rfl

@[simp] theorem PinMode.code_ofCode (c : BitVec 1) : (PinMode.ofCode c).code = c := by
  revert c; decide

/-! ## Small conditions -/

@[simp] theorem budgetOk_iff (n : Word32) : budgetOk n = true ↔ 0 < n.toInt := by simp [budgetOk]

@[simp] theorem Engine.busy_iff (e : Engine) : e.busy = true ↔ e.st ≠ .idle := by
  simp [Engine.busy]

@[simp] theorem deadlinePassed_iff (x : Input) (d : Word64) :
    deadlinePassed x d = true ↔ x.sample.millis > d := by
  simp [deadlinePassed, nowMillis]

theorem Engine.commandEnds_iff (e : Engine) (rd : ReadingRecord) :
    e.commandEnds rd = true ↔ rd.isValid = true ∨ e.attempt.toNat + 1 = e.maxr.toNat := by
  simp [Engine.commandEnds]

theorem edgeNumberOk_iff (i : BitVec 6) :
    edgeNumberOk i = true ↔ 1 ≤ i.toNat ∧ i.toNat ≤ 40 := by simp [edgeNumberOk]

/-- Inside its range EDGE_CNT counts up by one. -/
theorem incEdge_toNat {e : BitVec 6} (h : e.toNat < 63) : (incEdge e).toNat = e.toNat + 1 := by
  have h' : e.toNat + 1 < 2 ^ 6 := by omega
  simp only [incEdge, h', if_true, BitVec.toNat_add, BitVec.toNat_ofNat]
  omega

/-- Inside its range ATTEMPT counts up by one. -/
theorem incAttempt_toNat {a : Word32} (h : a.toNat < 2 ^ 32 - 1) :
    (incAttempt a).toNat = a.toNat + 1 := by
  have h' : a.toNat + 1 < 2 ^ 32 := by omega
  simp only [incAttempt, h', if_true, BitVec.toNat_add, BitVec.toNat_ofNat]
  omega

/-- Setting a frame bit, read back at any position. -/
theorem setFrameBit_getLsbD (frame : FrameWord) {p : Nat} (b : Bool) (hp : p < 40) (q : Nat) :
    (setFrameBit frame p b).getLsbD q = if q = p then b else frame.getLsbD q := by
  cases b <;> by_cases hq : q = p
  · subst hq; simp [setFrameBit, hp]
  · simp only [setFrameBit, Bool.false_eq_true, if_false, BitVec.getLsbD_and, BitVec.getLsbD_not,
      BitVec.getLsbD_shiftLeft, BitVec.getLsbD_one, hq]
    rcases Nat.lt_or_ge q 40 with h | h
    · have : ¬(q - p = 0 ∧ ¬q < p) := by omega
      simp [h]
      omega
    · simp [BitVec.getLsbD_of_ge, h]
  · subst hq; simp [setFrameBit, hp]
  · simp only [setFrameBit, if_true, BitVec.getLsbD_or, BitVec.getLsbD_shiftLeft,
      BitVec.getLsbD_one, hq, if_false]
    have : ¬(q - p = 0 ∧ ¬q < p) := by omega
    simp
    omega

/-- Inside its range SHIFTIN is the setting of bit `40 − i`. -/
theorem shiftIn_of_ok {i : BitVec 6} (h1 : 1 ≤ i.toNat) (h40 : i.toNat ≤ 40) (frame : FrameWord)
    (b : Bool) : shiftIn frame i b = setFrameBit frame (40 - i.toNat) b := by
  simp [shiftIn, edgeNumberOk, h1, h40]

/-! ## Beginning and retiring an attempt -/

/-- What BEGIN_ATTEMPT can do. -/
theorem beginAttempt_next {s t : State} (h : beginAttempt s = .next t) :
    s.inp.sample.tps ≠ 0#64 ∧ t = { s with eng := s.eng.startAttempt s.inp } := by
  unfold beginAttempt nextEngine ticksPerSecond at h
  split at h
  · cases h
  · cases h; exact ⟨‹_›, rfl⟩

/-- When BEGIN_ATTEMPT runs, and to which state. -/
theorem beginAttempt_of_tps {s : State} (h : s.inp.sample.tps ≠ 0#64) :
    beginAttempt s = .next { s with eng := s.eng.startAttempt s.inp } := by
  simp [beginAttempt, nextEngine, ticksPerSecond, h]

/-- What RETIRE can do: return the Reading, or begin the next attempt. -/
theorem retire_next {rd : ReadingRecord} {s t : State} (h : retire rd s = .next t) :
    ((rd.isValid = true ∨ s.eng.attempt.toNat + 1 = s.eng.maxr.toNat) ∧
        t = { s with eng := (s.eng.recordAttempt rd).finish }) ∨
      (rd.isValid = false ∧ s.eng.attempt.toNat + 1 ≠ s.eng.maxr.toNat ∧
        s.inp.sample.tps ≠ 0#64 ∧
        t = { s with eng := (s.eng.recordAttempt rd).startAttempt s.inp }) := by
  by_cases hc : s.eng.commandEnds rd = true
  · simp only [retire, hc, if_true, nextEngine] at h
    cases h
    exact .inl ⟨(s.eng.commandEnds_iff rd).1 hc, rfl⟩
  · simp only [retire, hc] at h
    have hn := mt (s.eng.commandEnds_iff rd).2 hc
    obtain ⟨htps, rfl⟩ := beginAttempt_next h
    exact .inr ⟨by simpa using fun hv => hn (.inl hv), fun he => hn (.inr he), htps, rfl⟩

/-- What GETREADING can do: it is accepted only in Idle with a positive budget. -/
theorem getReading_next {n : Word32} {s t : State} (h : getReading n s = .next t) :
    s.eng.st = .idle ∧ 0 < n.toInt ∧ s.inp.sample.tps ≠ 0#64 ∧
      t = { s with eng := (s.eng.acceptCommand n).startAttempt s.inp } := by
  unfold getReading at h
  split at h
  · cases h
  · rename_i hb
    split at h
    · rename_i hn
      obtain ⟨htps, rfl⟩ := beginAttempt_next h
      exact ⟨by simpa using hb, by simpa using hn, htps, rfl⟩
    · cases h

/-! ## The operations of the waiting states -/

/-- What HOLD can do. -/
theorem execHold_next {s t : State} (h : execHold s = .next t) :
    (s.inp.sample.millis > s.eng.deadline ∧ t = { s with eng := s.eng.release s.inp }) ∨
      (¬s.inp.sample.millis > s.eng.deadline ∧ t = s) := by
  unfold execHold at h
  split at h <;> rename_i hd <;> rw [deadlinePassed_iff] at hd <;> cases h
  · exact .inl ⟨hd, rfl⟩
  · exact .inr ⟨hd, rfl⟩

/-- What AWAIT can do. -/
theorem execAwait_next {s t : State} (h : execAwait s = .next t) :
    (s.inp.sample.millis > s.eng.deadline ∧ t = { s with eng := { s.eng with st := .timedOut } }) ∨
      (¬s.inp.sample.millis > s.eng.deadline ∧ t = { s with eng := s.eng.awaitLevel s.inp }) := by
  unfold execAwait at h
  split at h <;> rename_i hd <;> rw [deadlinePassed_iff] at hd <;> cases h
  · exact .inl ⟨hd, rfl⟩
  · exact .inr ⟨hd, rfl⟩

/-- What CAPTURE can do. -/
theorem execCapture_next {s t : State} (h : execCapture s = .next t) :
    (s.inp.sample.millis > s.eng.deadline ∧ t = { s with eng := { s.eng with st := .timedOut } }) ∨
      (¬s.inp.sample.millis > s.eng.deadline ∧
        t = { s with eng := s.eng.captureLevel s.inp }) := by
  unfold execCapture at h
  split at h <;> rename_i hd <;> rw [deadlinePassed_iff] at hd <;> cases h
  · exact .inl ⟨hd, rfl⟩
  · exact .inr ⟨hd, rfl⟩

/-- The three things AWAIT makes of a level inside the response window. -/
theorem Engine.awaitLevel_cases (e : Engine) (x : Input) :
    (x.sample.lvl = e.prevLevel ∧ e.awaitLevel x = e) ∨
      (e.prevLevel = .low ∧ x.sample.lvl = .high ∧
        e.awaitLevel x =
          { e with
            deadline := deadlineAfter (nowMillis x) Config.tCaptureMs
            prevLevel := .high
            st := .capturingBits }) ∨
      (e.prevLevel = .high ∧ x.sample.lvl = .low ∧
        e.awaitLevel x = { e with prevLevel := .low }) := by
  unfold Engine.awaitLevel pinRead
  cases hl : x.sample.lvl <;> cases hp : e.prevLevel <;> simp

/-- The two things CAPTURE makes of a level inside the capture window. -/
theorem Engine.captureLevel_cases (e : Engine) (x : Input) :
    (e.prevLevel = .high ∧ x.sample.lvl = .low ∧
        e.captureLevel x = { e.fallingEdge x.sample.ticks with prevLevel := .low }) ∨
      (¬(e.prevLevel = .high ∧ x.sample.lvl = .low) ∧
        e.captureLevel x = { e with prevLevel := x.sample.lvl }) := by
  unfold Engine.captureLevel pinRead nowTicks
  by_cases h : e.prevLevel = .high ∧ x.sample.lvl = .low
  · exact .inl ⟨h.1, h.2, by simp [h.1, h.2]⟩
  · exact .inr ⟨h, by simp [h]⟩

/-! ## The whole step -/

/-- No instruction touches the inputs or their bookkeeping. -/
theorem exec_inputs {i : Instr} {s t : State} (h : exec i s = .next t) :
    t.inp = s.inp ∧ t.script = s.script ∧ t.stepNo = s.stepNo := by
  cases i
  case idle => cases h; exact ⟨rfl, rfl, rfl⟩
  case getreading => obtain ⟨-, -, -, rfl⟩ := getReading_next h; exact ⟨rfl, rfl, rfl⟩
  case hold => obtain ⟨-, rfl⟩ | ⟨-, rfl⟩ := execHold_next h <;> exact ⟨rfl, rfl, rfl⟩
  case await => obtain ⟨-, rfl⟩ | ⟨-, rfl⟩ := execAwait_next h <;> exact ⟨rfl, rfl, rfl⟩
  case capture => obtain ⟨-, rfl⟩ | ⟨-, rfl⟩ := execCapture_next h <;> exact ⟨rfl, rfl, rfl⟩
  case retireS => obtain ⟨-, rfl⟩ | ⟨-, -, -, rfl⟩ := retire_next h <;> exact ⟨rfl, rfl, rfl⟩
  case retireT => obtain ⟨-, rfl⟩ | ⟨-, -, -, rfl⟩ := retire_next h <;> exact ⟨rfl, rfl, rfl⟩
  case reserved => cases h
  case getreadingDefault => obtain ⟨-, -, -, rfl⟩ := getReading_next h; exact ⟨rfl, rfl, rfl⟩
  case beginAttempt => obtain ⟨-, rfl⟩ := beginAttempt_next h; exact ⟨rfl, rfl, rfl⟩
  case retire => obtain ⟨-, rfl⟩ | ⟨-, -, -, rfl⟩ := retire_next h <;> exact ⟨rfl, rfl, rfl⟩
  case cmd => obtain ⟨-, -, -, rfl⟩ := getReading_next h; exact ⟨rfl, rfl, rfl⟩
  all_goals cases h; exact ⟨rfl, rfl, rfl⟩

/-- What a step can do: reset, or run the operation that `start` and `ST` select. -/
theorem step_next {s t : State} (h : step s = .next t) :
    (s.inp.rst = true ∧ t = s.resetEngine.advance) ∨
      (s.inp.rst = false ∧ ¬(s.inp.start = true ∧ s.eng.st ≠ .idle) ∧
        ∃ u, exec s.fetch s = .next u ∧ t = u.advance) := by
  unfold step State.preempt at h
  by_cases hr : s.inp.rst = true
  · simp only [hr, if_true] at h
    cases h
    exact .inl ⟨hr, rfl⟩
  · by_cases hb : s.inp.start = true ∧ s.eng.st ≠ .idle
    · simp [hr, hb.1, Engine.busy, hb.2] at h
    · have hb' : (s.inp.start && s.eng.busy) = false := by
        simpa [Engine.busy] using hb
      simp only [hr, hb', if_false, Bool.false_eq_true] at h
      refine .inr ⟨by simpa using hr, hb, ?_⟩
      revert h
      cases hx : exec s.fetch s with
      | next u => intro h; cases h; exact ⟨u, rfl, rfl⟩
      | fault f => intro h; cases h
      | refused r => intro h; cases h

/-- The operation each value of `ST` selects (R65). -/
theorem fetch_eq (s : State) :
    s.fetch =
      match s.eng.st with
      | .idle => if s.inp.start then .getreading else .idle
      | .signalingReset => .hold
      | .awaitingResponse => .await
      | .capturingBits => .capture
      | .success => .retireS
      | .timedOut => .retireT
      | .reserved6 => .reserved false
      | .reserved7 => .reserved true := by
  unfold State.fetch
  cases s.eng.st <;> cases s.inp.start <;> decide

end Sys2Proof.Machine
end

