-- ==== Sys2Proof/Laws/PerInstr.lean ====
section
/-! SUPPORT. One family of statements about every instruction as syntax: an instruction is still
the one it was, and still well formed or not, when its word is spelled canonically, so the spelling
GETREADING_DEFAULT loses nothing (R74). -/

namespace Sys2Proof.Laws.Spelling

/-- The canonical spelling of an instruction has the same word, is its own canonical spelling, and
is well formed when the instruction is. -/
def Statement (i : Instr) : Prop :=
  encode i.canonical = encode i ∧ i.canonical.canonical = i.canonical ∧
    (i.wellFormed = true → i.canonical.wellFormed = true)

theorem idle : Statement .idle := ⟨rfl, rfl, id⟩
theorem getreading : Statement .getreading := ⟨rfl, rfl, id⟩
theorem hold : Statement .hold := ⟨rfl, rfl, id⟩
theorem await : Statement .await := ⟨rfl, rfl, id⟩
theorem capture : Statement .capture := ⟨rfl, rfl, id⟩
theorem retireS : Statement .retireS := ⟨rfl, rfl, id⟩
theorem retireT : Statement .retireT := ⟨rfl, rfl, id⟩
theorem reserved (b : Bool) : Statement (.reserved b) := ⟨rfl, rfl, id⟩
theorem getreadingDefault : Statement .getreadingDefault := ⟨rfl, rfl, id⟩
theorem beginAttempt : Statement .beginAttempt := ⟨rfl, rfl, id⟩
theorem retire (r : ReadingRecord) : Statement (.retire r) := ⟨rfl, rfl, id⟩
theorem thresh (tps : Word64) : Statement (.thresh tps) := ⟨rfl, rfl, id⟩
theorem duration (now prev : Word64) : Statement (.duration now prev) := ⟨rfl, rfl, id⟩
theorem decodebit (d threshold : Word64) : Statement (.decodebit d threshold) := ⟨rfl, rfl, id⟩
theorem shiftin (frame : FrameWord) (i : BitVec 6) (b : Bool) : Statement (.shiftin frame i b) :=
  ⟨rfl, rfl, id⟩
theorem fields (frame : FrameWord) : Statement (.fields frame) := ⟨rfl, rfl, id⟩
theorem chksum (hI hF tI tF ck : Byte) : Statement (.chksum hI hF tI tF ck) := ⟨rfl, rfl, id⟩
theorem convert (hI hF tI tF : Byte) : Statement (.convert hI hF tI tF) := ⟨rfl, rfl, id⟩
theorem readingOfFrame (frame : FrameWord) : Statement (.readingOfFrame frame) := ⟨rfl, rfl, id⟩
theorem readingOfTimeout : Statement .readingOfTimeout := ⟨rfl, rfl, id⟩
theorem f40 (h g t u c : Byte) : Statement (.f40 h g t u c) := ⟨rfl, rfl, id⟩

theorem cmd (n : Word32) : Statement (.cmd n) := by
  by_cases h : n = defaultMaxRetries
  · subst h; exact ⟨rfl, rfl, fun _ => rfl⟩
  · simp [Statement, Instr.canonical, h]

theorem rd : Statement .rd := ⟨rfl, rfl, id⟩

end Sys2Proof.Laws.Spelling
end

