-- ==== Sys2Proof/Laws/Run.lean ====
section
/-! SUPPORT. Runs of several steps: one step peeled off, and the inputs presented along a run. -/

namespace Sys2Proof.Machine

/-- No step is no change. -/
theorem run_zero (s : State) : core.run 0 s = .next s := rfl

/-- A run of `k + 1` steps is its first step followed by a run of `k`. -/
theorem run_succ_of_next {s t : State} (h : step s = .next t) (k : Nat) :
    core.run (k + 1) s = core.run k t := by
  have h' : core.step s = .next t := h
  simp only [Host.Core.run, h']

/-- With the inputs of the coming steps fixed beforehand, a step presents them in order. -/
theorem advance_inputs {s : State} {x y : Input} {ys : List Input}
    (h : s.inp :: s.script = x :: y :: ys) : s.advance.inp :: s.advance.script = y :: ys := by
  simp only [List.cons.injEq] at h
  simp [State.nextInput, h.2]

/-- In a step that is not decided beforehand the selected operation runs. -/
theorem step_eq_finishStep {s : State} (hr : s.inp.rst = false)
    (hb : s.inp.start = true → s.eng.st = .idle) : step s = finishStep (exec s.fetch s) := by
  have hb' : (s.inp.start && s.eng.busy) = false := by
    simpa [Engine.busy] using hb
  simp only [step, State.preempt, hr, hb', Bool.false_eq_true, if_false]

end Sys2Proof.Machine
end

