-- ==== Sys2Proof/Tests/Slice0.lean ====
section
/-! SUPPORT. Tests: expected results from spec/95_test_vectors.md (V1 to V28 and its tables) and from
the encodings of spec/30_encoding.md; and a witness for the hypotheses of every obligation. -/

namespace Sys2Proof.Tests

open Sys2Proof.Machine

/-! ## Helpers -/

/-- The engine of a next state. -/
def engOf : Host.Outcome State Fault Refusal → Option Engine
  | .next t => some t.eng
  | _ => none

/-- The shown result of a next state. -/
def resultOf : Host.Outcome State Fault Refusal → Option FuncResult
  | .next t => some t.result
  | _ => none

/-- The reason of a refusal. -/
def refusalOf : Host.Outcome State Fault Refusal → Option Refusal
  | .refused r => some r
  | _ => none

/-- An input: the sample at one tick per microsecond, no command. -/
def inputAt (lvl : Level) (ticks millis : Nat) : Input :=
  { sample := ⟨lvl, BitVec.ofNat 64 ticks, BitVec.ofNat 64 millis, 1000000#64⟩
    start := false, maxRetries := 0#32, rst := false }

/-- A state with the given registers and sample. -/
def at_ (e : Engine) (lvl : Level) (ticks millis : Nat) : State :=
  { State.reset with eng := e, inp := inputAt lvl ticks millis }

/-- A state in Idle with a command presented. -/
def commanded (n : Word32) : State :=
  { at_ Engine.reset .high 5000250 5000 with
    inp := { inputAt .high 5000250 5000 with start := true, maxRetries := n } }

/-- The registers while a command is in flight. -/
def busyEng (st : St) (attempt maxr : Word32) : Engine :=
  { Engine.reset with st := st, threshold := 110#64, attempt := attempt, maxr := maxr }

/-- The reading registers and the way out of a retirement. -/
def outcomeOf (o : Host.Outcome State Fault Refusal) : Option (Reading × Word32 × Bool × St) :=
  (engOf o).map fun e => (e.reading, e.attempt, e.done, e.st)

/-! ## The decoder: words written out from 30_encoding.md -/

/-- The rows of format ST3 in opcode_table.json, as (match, mask). -/
def st3Rows : List (BitVec 4 × BitVec 4) :=
  [(0x0#4, 0xf#4), (0x8#4, 0xf#4), (0x1#4, 0x7#4), (0x2#4, 0x7#4), (0x3#4, 0x7#4), (0x4#4, 0x7#4),
    (0x5#4, 0x7#4), (0x6#4, 0x6#4)]

theorem test_rows_do_not_overlap :
    ∀ w : BitVec 4, (st3Rows.filter fun r => w &&& r.2 == r.1).length = 1 := by decide

theorem test_decode_cmd_three :
    decode (.cmd 0b100000000000000000000000000000011#33) = .ok (.cmd 3#32) := by decide

theorem test_decode_default :
    decode (.cmd 0b100000000000000000000000000010100#33) = .ok .getreadingDefault := by decide

theorem test_decode_no_command :
    decode (.cmd 0b000000000000000000000000000000011#33) = .error .noCommand := by decide

theorem test_decode_frame :
    decode (.f40 0b0011110000000000000110010000000001010101#40) =
      .ok (.f40 60#8 0#8 25#8 0#8 85#8) := by decide

theorem test_decode_frame_fields_apart :
    decode (.f40 0b0010110100000111000101110000110001010111#40) =
      .ok (.f40 45#8 7#8 23#8 12#8 0x57#8) := by decide

theorem test_decode_reading_word :
    readingOfRdWord 0b0100100101100000001111101000000000000000000000000000000001#58 =
      ⟨false, true, 600#12, 250#12, 1#32⟩ := by decide

theorem test_encode_cmd_three : encode (.cmd 3#32) = some (.cmd 0x100000003#33) := by decide

theorem test_encode_frame :
    encode (.f40 60#8 0#8 25#8 0#8 85#8) = some (.f40 0x3C00190055#40) := by decide

theorem test_table_words :
    [0x0, 0x8, 0x1, 0x2, 0x3, 0x4, 0x5, 0x6].map (decodeTableWord 8) =
      [some .idle, some .getreading, some .hold, some .await, some .capture, some .retireS,
        some .retireT, some (.reserved false)] := by decide

theorem test_table_words_wide :
    decodeTableWord 40 0x100000014 = some .getreadingDefault ∧
    decodeTableWord 40 0x100000007 = some (.cmd 7#32) ∧
    decodeTableWord 40 0x3C00190055 = some (.f40 60#8 0#8 25#8 0#8 85#8) ∧
    decodeTableWord 64 0 = some .rd ∧ decodeTableWord 0 0 = none := by decide

theorem test_placed_words_run_first :
    ([0x0, 0x8, 0x1, 0x2, 0x3, 0x4, 0x5].map fun w =>
      (engOf (step (State.reset.withFetchWord 8 w))).isSome) =
      [true, true, true, true, true, true, true] ∧
    refusalOf (step (State.reset.withFetchWord 8 0x6)) = some .reservedState := by decide

theorem test_placed_command_runs_first :
    (engOf (step (State.reset.withFetchWord 40 0x100000003))).map (fun e => (e.st, e.maxr)) =
      some (.signalingReset, 3#32) := by decide

/-- 30_encoding.md R67. -/
theorem test_codes_of_the_pin :
    Level.ofCode 0#1 = .low ∧ Level.ofCode 1#1 = .high ∧
    PinMode.ofCode 0#1 = .input ∧ PinMode.ofCode 1#1 = .output := by decide

/-! ## Well-formedness: each check refuses an ill-formed term -/

theorem test_ill_formed_edge_zero : (Instr.shiftin 0#40 0#6 true).wellFormed = false := by decide
theorem test_ill_formed_edge_41 : (Instr.shiftin 0#40 41#6 true).wellFormed = false := by decide
theorem test_ill_formed_budget_zero : (Instr.cmd 0#32).wellFormed = false := by decide
theorem test_ill_formed_budget_negative : (Instr.cmd 0x80000000#32).wellFormed = false := by decide
theorem test_ill_formed_record_both_flags :
    (Instr.retire ⟨true, true, 0#12, 0#12⟩).wellFormed = false := by decide
theorem test_ill_formed_record_value_of_failure :
    (Instr.retire ⟨false, false, 1#12, 0#12⟩).wellFormed = false := by decide
theorem test_ill_formed_record_range :
    (Instr.retire ⟨false, true, 2806#12, 0#12⟩).wellFormed = false := by decide
theorem test_well_formed_edges_of_range :
    (Instr.shiftin 0#40 1#6 true).wellFormed = true ∧
    (Instr.shiftin 0#40 40#6 true).wellFormed = true ∧
    (Instr.cmd 1#32).wellFormed = true ∧ (Instr.cmd 0x7FFFFFFF#32).wellFormed = true ∧
    (Instr.retire ⟨false, true, 2805#12, 2805#12⟩).wellFormed = true := by decide

/-! ## The acquisition state machine (95_test_vectors.md 2.1) -/

/-- V1. -/
theorem test_begin_attempt_v1 :
    (engOf (exec .beginAttempt (at_ Engine.reset .high 5000250 5000))).map
      (fun e => (e.threshold, e.pinOut, e.pinMode, e.deadline, e.st)) =
      some (110#64, .low, .output, 5018#64, .signalingReset) := by decide

/-- V2, another frequency. -/
theorem test_begin_attempt_v2 :
    (engOf (exec .beginAttempt { State.reset with
      inp := { Input.reset with sample := ⟨.low, 77#64, 12#64, 24000000#64⟩ } })).map
      (fun e => (e.threshold, e.deadline)) = some (2640#64, 30#64) := by decide

/-- V3: 5018 > 5018 is false. -/
theorem test_hold_v3 :
    let s := at_ { busyEng .signalingReset 0#32 1#32 with
      pinMode := .output, deadline := 5018#64 } .low 5018999 5018
    engOf (exec .hold s) = some s.eng := by decide

/-- V4. -/
theorem test_hold_v4 :
    (engOf (exec .hold (at_ { busyEng .signalingReset 0#32 1#32 with
      pinMode := .output, deadline := 5018#64 } .low 5019000 5019))).map
      (fun e => (e.pinMode, e.prevLevel, e.deadline, e.st)) =
      some (.input, .high, 5020#64, .awaitingResponse) := by decide

/-- V9: a rising edge exactly at the deadline value is still in time. -/
theorem test_await_v9 :
    (engOf (exec .await (at_ { busyEng .awaitingResponse 0#32 1#32 with
      deadline := 5020#64, prevLevel := .low } .high 5020999 5020))).map
      (fun e => (e.deadline, e.prevLevel, e.st)) =
      some (5030#64, .high, .capturingBits) := by decide

/-- V11: the timeout wins over a rising edge in the same sample. -/
theorem test_await_v11 :
    (engOf (exec .await (at_ { busyEng .awaitingResponse 0#32 1#32 with
      deadline := 5020#64, prevLevel := .low } .high 5021000 5021))).map
      (fun e => (e.deadline, e.prevLevel, e.st)) =
      some (5020#64, .low, .timedOut) := by decide

/-- V17: edge 40 completes the frame. -/
theorem test_capture_v17 :
    (engOf (exec .capture (at_ { busyEng .capturingBits 0#32 1#32 with
      deadline := 5029#64, prevLevel := .high, edgeCnt := 40#6, prevTime := 5022594#64
      frame := 0x3C00190054#40 } .low 5022714 5022))).map
      (fun e => (e.frame, e.prevTime, e.edgeCnt, e.prevLevel, e.st)) =
      some (0x3C00190055#40, 5022714#64, 41#6, .low, .success) := by decide

/-- V20: one tick above the threshold is a 1, at frame bit 35. -/
theorem test_capture_v20 :
    (engOf (exec .capture (at_ { busyEng .capturingBits 0#32 1#32 with
      deadline := 11#64, prevLevel := .high, edgeCnt := 5#6, prevTime := 1000#64
      frame := 0x3000000000#40 } .low 1111 1))).map
      (fun e => (e.frame, e.edgeCnt, e.st)) =
      some (0x3800000000#40, 6#6, .capturingBits) := by decide

/-- V24. -/
theorem test_retire_s_v24 :
    outcomeOf (exec .retireS (at_ { busyEng .success 0#32 1#32 with
      frame := 0x3C00190055#40, edgeCnt := 41#6 } .low 0 0)) =
      some (⟨false, true, 600#12, 250#12, 1#32⟩, 1#32, true, .idle) := by decide

/-- V25: an invalid frame is retried in the same step. -/
theorem test_retire_s_v25 :
    (engOf (exec .retireS (at_ { busyEng .success 0#32 2#32 with
      frame := 0x3C00190056#40, edgeCnt := 41#6 } .low 5022715 5022))).map
      (fun e => (e.reading, e.attempt, e.done, e.frame, e.deadline, e.st)) =
      some (⟨false, false, 0#12, 0#12, 1#32⟩, 1#32, false, 0#40, 5040#64,
        .signalingReset) := by decide

/-- V27. -/
theorem test_retire_t_v27 :
    outcomeOf (exec .retireT (at_ (busyEng .timedOut 0#32 3#32) .high 5021001 5021)) =
      some (⟨true, false, 0#12, 0#12, 1#32⟩, 1#32, false, .signalingReset) := by decide

/-- V28. -/
theorem test_retire_t_v28 :
    outcomeOf (exec .retireT (at_ (busyEng .timedOut 19#32 20#32) .high 0 0)) =
      some (⟨true, false, 0#12, 0#12, 20#32⟩, 20#32, true, .idle) := by decide

theorem test_reserved_refused :
    refusalOf (exec (.reserved true) State.reset) = some .reservedState := by decide

/-! ## The frame decoder (95_test_vectors.md 2.2) -/

theorem test_thresh_tie_rounds_up :
    resultOf (exec (.thresh 50000#64) State.reset) = some (.ticks 6#64) := by decide

theorem test_thresh_largest :
    resultOf (exec (.thresh (BitVec.ofNat 64 (2 ^ 64 - 1))) State.reset) =
      some (.ticks 2029141848108051#64) := by decide

theorem test_duration_across_a_wrap :
    resultOf (exec (.duration 36#64 (BitVec.ofNat 64 (2 ^ 64 - 40))) State.reset) =
      some (.ticks 76#64) := by decide

theorem test_decodebit_at_the_threshold :
    resultOf (exec (.decodebit 110#64 110#64) State.reset) = some (.bit false) := by decide

theorem test_decodebit_unsigned :
    resultOf (exec (.decodebit (BitVec.ofNat 64 (2 ^ 64 - 1)) 110#64) State.reset) =
      some (.bit true) := by decide

theorem test_shiftin_third_edge :
    resultOf (exec (.shiftin 0#40 3#6 true) State.reset) =
      some (.frame 0x2000000000#40) := by decide

theorem test_shiftin_zero_keeps_the_others :
    resultOf (exec (.shiftin 0x3C00000000#40 7#6 false) State.reset) =
      some (.frame 0x3C00000000#40) := by decide

/-! ## The checksum validator and the converter (95_test_vectors.md 2.3) -/

theorem test_fields_scenario_a :
    resultOf (exec (.fields 0x3C00190055#40) State.reset) =
      some (.fields ⟨60#8, 0#8, 25#8, 0#8, 85#8⟩) := by decide

theorem test_chksum_sum_256 :
    resultOf (exec (.chksum 128#8 0#8 128#8 0#8 0#8) State.reset) = some (.bit true) := by decide

theorem test_chksum_all_ones :
    resultOf (exec (.chksum 255#8 255#8 255#8 255#8 255#8) State.reset) =
      some (.bit false) := by decide

theorem test_convert_wide_fraction :
    resultOf (exec (.convert 45#8 7#8 23#8 12#8) State.reset) =
      some (.tenths 457#12 242#12) := by decide

theorem test_convert_largest :
    resultOf (exec (.convert 255#8 255#8 255#8 255#8) State.reset) =
      some (.tenths 2805#12 2805#12) := by decide

theorem test_reading_of_frame_no_sign :
    resultOf (exec (.readingOfFrame 0x28008500AD#40) State.reset) =
      some (.record ⟨false, true, 400#12, 1330#12⟩) := by decide

theorem test_reading_of_frame_scenario_b :
    resultOf (exec (.readingOfFrame 0x3C00190056#40) State.reset) =
      some (.record ⟨false, false, 0#12, 0#12⟩) := by decide

theorem test_reading_of_timeout :
    resultOf (exec .readingOfTimeout State.reset) =
      some (.record ⟨true, false, 0#12, 0#12⟩) := by decide

theorem test_f40_scenario_a :
    resultOf (exec (.f40 60#8 0#8 25#8 0#8 85#8) State.reset) =
      some (.record ⟨false, true, 600#12, 250#12⟩) := by decide

/-! ## The retry policy (95_test_vectors.md 2.4, program P0) -/

theorem test_idle_step_p0 : engOf (step State.reset) = some Engine.reset := by decide

theorem test_getreading_three :
    (engOf (step (commanded 3#32))).map
      (fun e => (e.maxr, e.attempt, e.done, e.deadline, e.st)) =
      some (3#32, 0#32, false, 5018#64, .signalingReset) := by decide

theorem test_getreading_not_positive :
    refusalOf (step (commanded 0#32)) = some .budgetNotPositive ∧
    refusalOf (step (commanded 0xFFFFFFFF#32)) = some .budgetNotPositive ∧
    refusalOf (step (commanded 0x80000000#32)) = some .budgetNotPositive := by decide

theorem test_cmd_largest_budget :
    (engOf (exec (.cmd 0x7FFFFFFF#32) State.reset)).map (fun e => (e.maxr, e.st)) =
      some (0x7FFFFFFF#32, .signalingReset) := by decide

theorem test_getreading_default_is_twenty :
    (engOf (exec .getreadingDefault State.reset)).map (fun e => (e.maxr, e.st)) =
      some (20#32, .signalingReset) := by decide

theorem test_retire_third_attempt :
    outcomeOf (exec (.retire ⟨false, true, 600#12, 250#12⟩)
      (at_ (busyEng .success 2#32 3#32) .low 0 0)) =
      some (⟨false, true, 600#12, 250#12, 3#32⟩, 3#32, true, .idle) := by decide

theorem test_rd_shows_the_reading :
    resultOf (exec .rd (at_ { Engine.reset with
      done := true, rdIsValid := true, rdHumTenths := 600#12, rdTempTenths := 250#12
      rdRetryCount := 1#32 } .high 0 0)) =
      some (.reading ⟨false, true, 600#12, 250#12, 1#32⟩) := by decide

/-- Section 2.5: reset in the middle of a capture. -/
theorem test_reset_mid_capture :
    engOf (step { at_ { busyEng .capturingBits 1#32 5#32 with
      edgeCnt := 17#6, frame := 0x3C00000000#40, rdTimedOut := true, rdRetryCount := 1#32 }
        .low 0 0 with inp := { inputAt .low 0 0 with rst := true } }) =
      some Engine.reset := by decide

/-! ## Witnesses: states and operands that meet the hypotheses of each obligation -/

/-- A state in the given waiting state, deadline 5020, with the levels before and now. -/
def waiting (st : St) (prev now : Level) (edges : BitVec 6) (millis : Nat) : State :=
  at_ { busyEng st 0#32 2#32 with
    pinMode := if st = .signalingReset then .output else .input
    deadline := 5020#64, prevLevel := prev, edgeCnt := edges } now 5019500 millis

theorem witness_DecodeInvertsEncode :
    encode (.f40 60#8 0#8 25#8 0#8 85#8) = some (.f40 0x3C00190055#40) ∧
    encode (.cmd 20#32) = some (.cmd 0x100000014#33) ∧
    encode (.reserved true) = some (.st3 7#4) := by decide

theorem witness_EncodeInvertsDecode :
    decode (.f40 0xFFFFFFFFFF#40) = .ok (.f40 255#8 255#8 255#8 255#8 255#8) ∧
    decode (.cmd 0x1FFFFFFFF#33) = .ok (.cmd 0xFFFFFFFF#32) := by decide

theorem witness_StepRunsTheSelectedOperation :
    ((commanded 3#32).inp.rst = false ∧
      ((commanded 3#32).inp.start = true → (commanded 3#32).eng.st = .idle)) ∧
    ((waiting .capturingBits .high .low 3#6 5019).inp.rst = false ∧
      ((waiting .capturingBits .high .low 3#6 5019).inp.start = true →
        (waiting .capturingBits .high .low 3#6 5019).eng.st = .idle)) := by decide

theorem witness_StepIsTotalOutsideTheRefusedCases :
    (commanded 0#32).inp.rst = false ∧ (commanded 0#32).RefusedCase ∧
    (commanded 1#32).inp.rst = false ∧ ¬(commanded 1#32).RefusedCase := by
  refine ⟨rfl, .inr (.inl ⟨rfl, rfl, by decide⟩), rfl, ?_⟩
  rintro (h | h | h | h | h)
  · exact h.2 rfl
  · exact absurd h.2.2 (by decide)
  · cases h
  · cases h
  · exact absurd h.2 (by decide)

theorem witness_StepFollowsTheTransitionTable :
    (waiting .timedOut .high .high 0#6 5021).inp.rst = false ∧
    (waiting .timedOut .high .high 0#6 5021).eng.BudgetOk ∧
    ∃ t, step (waiting .timedOut .high .high 0#6 5021) = .next t := by
  exact ⟨rfl, by decide, _, rfl⟩

theorem witness_ResetInputRestoresTheResetValues :
    ({ State.reset with inp := { Input.reset with rst := true } } : State).inp.rst = true := rfl

theorem witness_EveryStepKeepsTheInvariants :
    ((waiting .awaitingResponse .low .high 0#6 5020).eng.Inv ∧
      ∃ t, step (waiting .awaitingResponse .low .high 0#6 5020) = .next t) ∧
    State.reset.eng.Inv := by
  exact ⟨⟨by decide, _, rfl⟩, by decide⟩

theorem witness_BeginAttemptStartsTheResetPulse : State.reset.inp.sample.tps ≠ 0#64 := by decide

/-- A state whose clock port gives frequency 0. -/
def noClock (e : Engine) : State :=
  { State.reset with
    eng := e, inp := { Input.reset with sample := ⟨.high, 0#64, 0#64, 0#64⟩, maxRetries := 1#32 } }

theorem witness_ZeroFrequencyIsRefused :
    (noClock Engine.reset).inp.sample.tps = 0#64 ∧ (noClock Engine.reset).eng.st = .idle ∧
    1 ≤ (noClock Engine.reset).inp.maxRetries.toInt ∧
    (noClock (busyEng .timedOut 0#32 2#32)).inp.sample.tps = 0#64 ∧
    readingOfTimeout.isValid = false ∧
    (noClock (busyEng .timedOut 0#32 2#32)).eng.attempt.toNat + 1 ≠
      (noClock (busyEng .timedOut 0#32 2#32)).eng.maxr.toNat := by decide

theorem witness_HoldReleasesAfterTheDeadline :
    (waiting .signalingReset .high .low 0#6 5021).inp.sample.millis >
      (waiting .signalingReset .high .low 0#6 5021).eng.deadline ∧
    (waiting .signalingReset .high .low 0#6 5020).inp.sample.millis ≤
      (waiting .signalingReset .high .low 0#6 5020).eng.deadline := by decide

theorem witness_AwaitTakesTheFirstRisingEdge :
    (waiting .awaitingResponse .low .high 0#6 5021).inp.sample.millis >
      (waiting .awaitingResponse .low .high 0#6 5021).eng.deadline ∧
    (waiting .awaitingResponse .low .high 0#6 5020).inp.sample.millis ≤
      (waiting .awaitingResponse .low .high 0#6 5020).eng.deadline ∧
    (waiting .awaitingResponse .low .high 0#6 5020).eng.RisingSeen
      (waiting .awaitingResponse .low .high 0#6 5020).inp ∧
    (waiting .awaitingResponse .high .low 0#6 5020).eng.FallingSeen
      (waiting .awaitingResponse .high .low 0#6 5020).inp ∧
    (waiting .awaitingResponse .high .high 0#6 5020).inp.sample.lvl =
      (waiting .awaitingResponse .high .high 0#6 5020).eng.prevLevel := by decide

theorem witness_CaptureWithoutABit :
    (waiting .capturingBits .high .low 0#6 5021).inp.sample.millis >
      (waiting .capturingBits .high .low 0#6 5021).eng.deadline ∧
    (waiting .capturingBits .high .low 0#6 5020).inp.sample.millis ≤
      (waiting .capturingBits .high .low 0#6 5020).eng.deadline ∧
    (waiting .capturingBits .high .low 0#6 5020).eng.FallingSeen
      (waiting .capturingBits .high .low 0#6 5020).inp ∧
    (waiting .capturingBits .high .low 0#6 5020).eng.edgeCnt = 0#6 ∧
    ¬(waiting .capturingBits .low .high 7#6 5020).eng.FallingSeen
      (waiting .capturingBits .low .high 7#6 5020).inp := by decide

theorem witness_CaptureWritesTheBitOfAFallingEdge :
    ∀ e ∈ [1#6, 40#6],
      (waiting .capturingBits .high .low e 5020).inp.sample.millis ≤
        (waiting .capturingBits .high .low e 5020).eng.deadline ∧
      (waiting .capturingBits .high .low e 5020).eng.FallingSeen
        (waiting .capturingBits .high .low e 5020).inp ∧
      1 ≤ (waiting .capturingBits .high .low e 5020).eng.edgeCnt.toNat ∧
      (waiting .capturingBits .high .low e 5020).eng.edgeCnt.toNat ≤ 40 := by decide

theorem witness_CaptureBeyondTheLastEdgeStillRuns :
    ∀ e ∈ [41#6, 63#6],
      (waiting .capturingBits .high .low e 5020).inp.sample.millis ≤
        (waiting .capturingBits .high .low e 5020).eng.deadline ∧
      (waiting .capturingBits .high .low e 5020).eng.FallingSeen
        (waiting .capturingBits .high .low e 5020).inp ∧
      40 < (waiting .capturingBits .high .low e 5020).eng.edgeCnt.toNat := by decide

/-- A complete frame about to be retired. -/
def completed (frame : FrameWord) (attempt maxr : Word32) : State :=
  at_ { busyEng .success attempt maxr with frame := frame, edgeCnt := 41#6 } .low 5022715 5022

theorem witness_RetireSRetiresTheFrame :
    FrameValid (completed 0x3C00190055#40 0#32 3#32).eng.frame ∧
    (completed 0x3C00190056#40 2#32 3#32).eng.attempt.toNat + 1 =
      (completed 0x3C00190056#40 2#32 3#32).eng.maxr.toNat ∧
    ¬FrameValid (completed 0x3C00190056#40 0#32 3#32).eng.frame ∧
    (completed 0x3C00190056#40 0#32 3#32).eng.attempt.toNat + 1 ≠
      (completed 0x3C00190056#40 0#32 3#32).eng.maxr.toNat ∧
    (completed 0x3C00190056#40 0#32 3#32).inp.sample.tps ≠ 0#64 := by decide

theorem witness_RetireTRecordsTheTimeout :
    (at_ (busyEng .timedOut 2#32 3#32) .high 0 0).eng.attempt.toNat + 1 =
      (at_ (busyEng .timedOut 2#32 3#32) .high 0 0).eng.maxr.toNat ∧
    (at_ (busyEng .timedOut 0#32 3#32) .high 0 0).eng.attempt.toNat + 1 ≠
      (at_ (busyEng .timedOut 0#32 3#32) .high 0 0).eng.maxr.toNat ∧
    (at_ (busyEng .timedOut 0#32 3#32) .high 0 0).inp.sample.tps ≠ 0#64 := by decide

theorem witness_ReservedCodesAreRefused :
    (at_ { Engine.reset with st := .reserved6 } .high 0 0).inp.rst = false ∧
    (at_ { Engine.reset with st := .reserved6 } .high 0 0).eng.st = .reserved6 ∧
    (at_ { Engine.reset with st := .reserved7 } .high 0 0).eng.st = .reserved7 ∧
    (at_ { Engine.reset with st := .reserved6 } .high 0 0).inp.start = false := by decide

theorem witness_DeadlineDecidesBeforeTheLevel :
    ∀ st ∈ [St.signalingReset, St.awaitingResponse, St.capturingBits],
      (waiting st .high .low 40#6 5021).inp.rst = false ∧
      (waiting st .high .low 40#6 5021).inp.start = false ∧
      (waiting st .high .low 40#6 5021).inp.sample.millis >
        (waiting st .high .low 40#6 5021).eng.deadline ∧
      (waiting st .high .low 40#6 5021).eng.st = st := by decide

theorem witness_WaitsLastTheirBudgetAndOneCount :
    (waiting .signalingReset .high .low 0#6 5021).inp.sample.millis.toNat + 18 < 2 ^ 64 ∧
    (waiting .signalingReset .high .low 0#6 5021).inp.sample.tps ≠ 0#64 ∧
    (waiting .signalingReset .high .low 0#6 5021).inp.sample.millis >
      (waiting .signalingReset .high .low 0#6 5021).eng.deadline ∧
    (waiting .awaitingResponse .low .high 0#6 5020).inp.sample.millis.toNat + 18 < 2 ^ 64 ∧
    (waiting .awaitingResponse .low .high 0#6 5020).inp.sample.millis ≤
      (waiting .awaitingResponse .low .high 0#6 5020).eng.deadline ∧
    (waiting .awaitingResponse .low .high 0#6 5020).eng.RisingSeen
      (waiting .awaitingResponse .low .high 0#6 5020).inp := by decide

theorem witness_ThresholdDoublesWithinOneTick :
    2 * (1004546#64).toNat < 2 ^ 64 ∧ 2 * (1000000#64).toNat < 2 ^ 64 ∧
    110 * (1000000#64).toNat % 1000000 = 0 := by decide

theorem witness_DurationIsTheModularDifference :
    (36#64).toNat = ((BitVec.ofNat 64 (2 ^ 64 - 40)).toNat + 76) % 2 ^ 64 ∧ 76 < 2 ^ 64 := by
  decide

theorem witness_DecodeBitIsStrictlyAbove : (110#64 : Word64) = 110#64 := rfl

theorem witness_ShiftInPlacesOneBit :
    ∀ i ∈ [1#6, 40#6], 1 ≤ i.toNat ∧ i.toNat ≤ 40 := by decide

/-- The polls of an attempt with 41 falling edges, a period of 76 ticks each. -/
def fortyOneEdges : List Input :=
  (List.range 41).flatMap fun i =>
    [inputAt .high (76 * i + 26) 5019, inputAt .low (76 * i + 76) 5019]

theorem witness_CapturedFrameIsTheFortyDurations :
    (waiting .capturingBits .high .high 0#6 5019).eng.st = .capturingBits ∧
    (waiting .capturingBits .high .high 0#6 5019).eng.edgeCnt = 0#6 ∧
    (waiting .capturingBits .high .high 0#6 5019).eng.frame = 0#40 ∧
    (∀ x ∈ fortyOneEdges,
      x.sample.millis ≤ (waiting .capturingBits .high .high 0#6 5019).eng.deadline) ∧
    41 ≤ (edgeTimes (waiting .capturingBits .high .high 0#6 5019).eng.prevLevel
      fortyOneEdges).length := by
  refine ⟨rfl, rfl, rfl, ?_, Nat.le_of_eq rfl⟩
  intro x hx
  simp only [fortyOneEdges, List.mem_flatMap, List.mem_cons, List.not_mem_nil, or_false] at hx
  obtain ⟨i, -, rfl | rfl⟩ := hx <;> simp [inputAt, waiting, at_]

theorem witness_CaptureKeepsTheAccountOfEdges :
    (waiting .capturingBits .high .low 0#6 5019).eng.st = .capturingBits ∧
    (waiting .capturingBits .high .low 0#6 5019).eng.Tracks [] ∧
    ([] : List Word64).length ≤ 40 ∧
    (waiting .capturingBits .high .low 0#6 5019).inp.sample.millis ≤
      (waiting .capturingBits .high .low 0#6 5019).eng.deadline := by
  refine ⟨rfl, ⟨rfl, ?_, ?_⟩, by decide, by decide⟩
  · intro t h; cases h
  · intro i _ _; simp [waiting, at_, busyEng, Engine.reset]

theorem witness_ChecksumCatchesSingleBitErrors :
    (readingOfFrame 0x3C00190055#40).isValid = true ∧ 39 < 40 := by decide

theorem witness_ChecksumMissesCompensatingErrors :
    ((0 : Fin 4) ≠ 3 ∧ (254#8 : Byte) ≠ 255#8 ∧ (1#8 : Byte) ≠ 0#8) ∧
    (2 : Fin 4) ≠ 1 ∧ chksum 60#8 1#8 24#8 0#8 85#8 = true := by decide

theorem witness_IdleChangesNothing :
    State.reset.inp.rst = false ∧ State.reset.inp.start = false ∧
    State.reset.eng.st = .idle := by decide

theorem witness_GetReadingAcceptsACommand :
    ∀ n ∈ [1#32, 0x7FFFFFFF#32],
      (commanded n).eng.st = .idle ∧ (commanded n).inp.sample.tps ≠ 0#64 ∧
      1 ≤ (commanded n).inp.maxRetries.toInt := by
  simp [commanded, at_, inputAt, Engine.reset]

theorem witness_CommandWordsAcceptACommand :
    State.reset.eng.st = .idle ∧ State.reset.inp.sample.tps ≠ 0#64 ∧
    1 ≤ (1#32 : Word32).toInt ∧ 1 ≤ (0x7FFFFFFF#32 : Word32).toInt := by decide

theorem witness_CommandSignalsAreTheCommandWord :
    (commanded 20#32).inp.rst = false ∧ (commanded 20#32).inp.start = true ∧
    (commanded 20#32).eng.st = .idle ∧ (commanded 20#32).inp.maxRetries = 20#32 := by decide

/-- A strobe while a command is in flight. -/
def strobed : State :=
  { waiting .capturingBits .high .low 3#6 5019 with
    inp := { inputAt .low 5019500 5019 with start := true, maxRetries := 1#32 } }

theorem witness_RefusedCommands :
    ((commanded 0#32).inp.rst = false ∧ (commanded 0#32).inp.start = true ∧
      (commanded 0#32).eng.st = .idle ∧ (commanded 0#32).inp.maxRetries.toInt ≤ 0) ∧
    strobed.inp.rst = false ∧ strobed.inp.start = true ∧ strobed.eng.st ≠ .idle := by decide

theorem witness_RefusedCommandWords :
    (commanded 0#32).eng.st = .idle ∧ (commanded 0#32).inp.maxRetries.toInt ≤ 0 ∧
    (0x80000000#32 : Word32).toInt ≤ 0 ∧ strobed.eng.st ≠ .idle := by decide

theorem witness_RetireReturnsOrRetries :
    (⟨false, true, 600#12, 250#12⟩ : ReadingRecord).isValid = true ∧
    (at_ (busyEng .timedOut 2#32 3#32) .high 0 0).eng.attempt.toNat + 1 =
      (at_ (busyEng .timedOut 2#32 3#32) .high 0 0).eng.maxr.toNat ∧
    readingOfTimeout.isValid = false ∧
    (at_ (busyEng .timedOut 0#32 3#32) .high 0 0).eng.attempt.toNat + 1 ≠
      (at_ (busyEng .timedOut 0#32 3#32) .high 0 0).eng.maxr.toNat ∧
    (at_ (busyEng .timedOut 0#32 3#32) .high 0 0).inp.sample.tps ≠ 0#64 := by decide

/-- Scenario E: two timeouts, then a valid record, each retired in a step of its own. -/
def scenarioE : List (Input × ReadingRecord) :=
  [(inputAt .high 5021000 5021, readingOfTimeout), (inputAt .high 5042000 5042, readingOfTimeout),
    (inputAt .high 5066000 5066, ⟨false, true, 600#12, 250#12⟩)]

theorem witness_CommandReturnsTheFirstValidRecord :
    (at_ (busyEng .timedOut 0#32 3#32) .high 0 0).eng.attempt = 0#32 ∧
    (at_ (busyEng .timedOut 0#32 3#32) .high 0 0).eng.done = false ∧
    scenarioE[2]? = some (inputAt .high 5066000 5066, ⟨false, true, 600#12, 250#12⟩) ∧
    (∀ j < 2, ∀ p, scenarioE[j]? = some p → p.2.isValid = false ∧ p.1.sample.tps ≠ 0#64) ∧
    2 + 1 ≤ (at_ (busyEng .timedOut 0#32 3#32) .high 0 0).eng.maxr.toNat ∧
    (⟨false, true, 600#12, 250#12⟩ : ReadingRecord).isValid = true := by
  refine ⟨rfl, rfl, rfl, ?_, by decide, rfl⟩
  intro j hj p hp
  obtain rfl | rfl : j = 0 ∨ j = 1 := by omega
  · cases hp; exact ⟨rfl, by decide⟩
  · cases hp; exact ⟨rfl, by decide⟩

/-- Exhausted retries: the budget of 2 is used up by an invalid record. -/
theorem witness_CommandReturnsTheLastRecord :
    (at_ (busyEng .timedOut 0#32 2#32) .high 0 0).eng.attempt = 0#32 ∧
    (at_ (busyEng .timedOut 0#32 2#32) .high 0 0).eng.done = false ∧
    scenarioE[1]? = some (inputAt .high 5042000 5042, readingOfTimeout) ∧
    (∀ j < 1, ∀ p, scenarioE[j]? = some p → p.2.isValid = false ∧ p.1.sample.tps ≠ 0#64) ∧
    1 + 1 = (at_ (busyEng .timedOut 0#32 2#32) .high 0 0).eng.maxr.toNat ∧
    readingOfTimeout.isValid = false := by
  refine ⟨rfl, rfl, rfl, ?_, by decide, rfl⟩
  intro j hj p hp
  obtain rfl : j = 0 := by omega
  cases hp; exact ⟨rfl, by decide⟩

theorem witness_OnlyRetirementWritesTheReading :
    ((commanded 3#32).inp.rst = false ∧ (∃ t, step (commanded 3#32) = .next t) ∧
      (commanded 3#32).eng.st ≠ .success ∧ (commanded 3#32).eng.st ≠ .timedOut) ∧
    ∃ t, step { State.reset with eng := { Engine.reset with done := true } } = .next t ∧
      t.eng.done = true := by
  exact ⟨⟨rfl, ⟨_, rfl⟩, by decide, by decide⟩, _, rfl, rfl⟩

theorem witness_BusyEndsOnlyByRetirement :
    (completed 0x3C00190055#40 0#32 3#32).inp.rst = false ∧
    (completed 0x3C00190055#40 0#32 3#32).eng.st ≠ .idle ∧
    ∃ t, step (completed 0x3C00190055#40 0#32 3#32) = .next t ∧ t.eng.st = .idle := by
  exact ⟨rfl, by decide, _, rfl, rfl⟩

theorem witness_ThresholdIsComputedOncePerAttempt :
    ((commanded 3#32).inp.rst = false ∧ (∃ t, step (commanded 3#32) = .next t) ∧
      (commanded 3#32).BeginsAttempt) ∧
    (State.reset.inp.rst = false ∧ (∃ t, step State.reset = .next t) ∧
      ¬State.reset.BeginsAttempt) := by
  refine ⟨⟨rfl, ⟨_, rfl⟩, rfl, by decide⟩, rfl, ⟨_, rfl⟩, ?_⟩
  rintro ⟨h, -⟩
  cases h

theorem witness_ResultStaysUntilTheNextCommand :
    State.reset.eng.st = .idle ∧
    State.reset.inp :: State.reset.script = [Input.reset] ++ [] ∧
    ∀ x ∈ [Input.reset], x.start = false ∧ x.rst = false := by decide

/-- A hold with one early and one late sample to come. -/
def holding : State :=
  { waiting .signalingReset .high .low 0#6 5020 with script := [inputAt .low 5021000 5021] }

theorem witness_HoldEndsAtTheFirstLateSample :
    holding.eng.st = .signalingReset ∧
    holding.inp :: holding.script = [holding.inp] ++ inputAt .low 5021000 5021 :: [] ∧
    (∀ y ∈ [holding.inp], y.start = false ∧ y.rst = false ∧
      y.sample.millis ≤ holding.eng.deadline) ∧
    (inputAt .low 5021000 5021).start = false ∧ (inputAt .low 5021000 5021).rst = false ∧
    (inputAt .low 5021000 5021).sample.millis > holding.eng.deadline := by decide

/-- Inputs that agree with those of `waiting … 5020` on everything but the fields CAPTURE, seeing no
falling edge, does not use. -/
def sameForCapture : Input :=
  { inputAt .low 1 5020 with maxRetries := 7#32, start := true }

theorem witness_UnusedSampleFieldsHaveNoInfluence :
    sameForCapture.sample.millis =
      (waiting .capturingBits .low .low 3#6 5020).inp.sample.millis ∧
    sameForCapture.sample.lvl = (waiting .capturingBits .low .low 3#6 5020).inp.sample.lvl ∧
    ((waiting .capturingBits .low .low 3#6 5020).eng.FallingSeen
      (waiting .capturingBits .low .low 3#6 5020).inp →
        sameForCapture.sample.ticks =
          (waiting .capturingBits .low .low 3#6 5020).inp.sample.ticks) ∧
    (inputAt .low 1 5000).sample.millis = (commanded 3#32).inp.sample.millis ∧
    (inputAt .low 1 5000).sample.tps = (commanded 3#32).inp.sample.tps ∧
    (inputAt .low 1 5000).sample.tps ≠ 0#64 ∧ (commanded 3#32).eng.st = .idle ∧
    1 ≤ (commanded 3#32).inp.maxRetries.toInt ∧
    ({ inputAt .low 1 5000 with maxRetries := 3#32 } : Input).maxRetries =
      (commanded 3#32).inp.maxRetries := by decide

theorem witness_AttemptsAreIndependent :
    (completed 0x3C00190056#40 0#32 3#32).inp =
      (at_ (busyEng .timedOut 1#32 3#32) .low 5022715 5022).inp ∧
    (completed 0x3C00190056#40 0#32 3#32).inp.sample.tps ≠ 0#64 ∧
    (engOf (exec .beginAttempt (completed 0x3C00190056#40 0#32 3#32))).map
      (fun e => decide ((inputAt .low 0 5041).sample.millis > e.deadline)) = some true := by decide

theorem witness_LineIsDrivenLowOnlyInSignalingReset :
    (waiting .signalingReset .high .low 0#6 5020).eng.Inv ∧
    (∃ t, step (waiting .signalingReset .high .low 0#6 5020) = .next t ∧
      t.eng.st = .signalingReset) ∧
    ∃ t, step (waiting .signalingReset .high .low 0#6 5021) = .next t ∧
      t.eng.st ≠ .signalingReset := by
  exact ⟨by decide, ⟨_, rfl, rfl⟩, _, rfl, by decide⟩

theorem witness_RetirementShowsOneOutcomeCode :
    ((completed 0x3C00190056#40 0#32 3#32).inp.rst = false ∧
      (completed 0x3C00190056#40 0#32 3#32).eng.st = .success ∧
      ∃ t, step (completed 0x3C00190056#40 0#32 3#32) = .next t) ∧
    ((at_ (busyEng .timedOut 0#32 3#32) .high 0 0).inp.rst = false ∧
      (at_ (busyEng .timedOut 0#32 3#32) .high 0 0).eng.st = .timedOut ∧
      ∃ t, step (at_ (busyEng .timedOut 0#32 3#32) .high 0 0) = .next t) := by
  exact ⟨⟨rfl, rfl, _, rfl⟩, rfl, rfl, _, rfl⟩

theorem witness_PinBitsFollowTheState :
    (waiting .signalingReset .high .low 0#6 5020).eng.Inv ∧
    (∃ t, step (waiting .signalingReset .high .low 0#6 5020) = .next t ∧
      t.eng.pinModeBit = 1#1) ∧
    ∃ t, step (waiting .signalingReset .high .low 0#6 5021) = .next t ∧
      t.eng.pinModeBit = 0#1 := by
  exact ⟨by decide, ⟨_, rfl, rfl⟩, _, rfl, rfl⟩

end Sys2Proof.Tests
end

section
/-! SUPPORT. What one step does to the registers, said once, and what each of these changes keeps of
the invariants of R35. -/

namespace Sys2Proof.Machine

/-! ## Values over the natural numbers -/

/-- The bounds of a positive `max_retries` (R32). -/
theorem toNat_bounds_of_toInt_pos {n : Word32} (h : 0 < n.toInt) :
    1 ≤ n.toNat ∧ n.toNat ≤ 2 ^ 31 - 1 := by
  rw [BitVec.toInt_eq_toNat_cond] at h
  have := n.isLt
  split at h <;> omega

/-- THRESH does not wrap (R100). -/
theorem thresh_toNat (tps : Word64) :
    (thresh tps).toNat = (110 * tps.toNat + 500000) / 1000000 := by
  have := tps.isLt
  simp only [thresh, Config.cutoffUs, Config.halfUsPerS, Config.usPerS, BitVec.toNat_ofNat]
  omega

/-- A physical value does not wrap (R112). -/
theorem tenthsOf_toNat (int frac : Byte) :
    (tenthsOf int frac).toNat = 10 * int.toNat + frac.toNat := by
  have := int.isLt
  have := frac.isLt
  simp only [tenthsOf, BitVec.toNat_add, BitVec.toNat_mul, BitVec.toNat_setWidth,
    BitVec.toNat_ofNat]
  omega

theorem tenthsOf_le (int frac : Byte) : (tenthsOf int frac).toNat ≤ 2805 := by
  have := int.isLt
  have := frac.isLt
  rw [tenthsOf_toNat]
  omega

/-- CHKSUM compares with the sum of the data bytes modulo 256 (R111). -/
theorem chksum_iff (hI hF tI tF ck : Byte) :
    chksum hI hF tI tF ck = true ↔
      ck.toNat = (hI.toNat + hF.toNat + tI.toNat + tF.toNat) % 256 := by
  have := hI.isLt
  have := hF.isLt
  have := tI.isLt
  have := tF.isLt
  simp only [chksum, byteSum, beq_iff_eq, ← BitVec.toNat_inj, BitVec.extractLsb'_toNat,
    BitVec.toNat_add, BitVec.toNat_setWidth, Nat.shiftRight_zero]
  omega

/-- A byte cut out of a frame is that byte of its number (R63). -/
theorem extractLsb'_toNat_eq_frameByte (f : FrameWord) (k : Nat) :
    (f.extractLsb' (8 * k) 8).toNat = frameByte f k := by
  simp [frameByte, Nat.shiftRight_eq_div_pow]

/-- The model's checksum is the validity rule of R111. -/
theorem checksumOk_fields_iff (f : FrameWord) : checksumOk (fields f) = true ↔ FrameValid f := by
  simp only [checksumOk, chksum_iff, FrameValid, ← extractLsb'_toNat_eq_frameByte, fields]

/-! ## Reading records -/

theorem readingOfFrame_isValid_iff (f : FrameWord) :
    (readingOfFrame f).isValid = true ↔ FrameValid f := by
  rw [← checksumOk_fields_iff]
  cases h : checksumOk (fields f) <;> simp [readingOfFrame, recordOfFields, h]

/-- An attempt that captured a frame retires a record the spec admits. -/
theorem recordOk_readingOfFrame (f : FrameWord) : recordOk (readingOfFrame f) = true := by
  unfold readingOfFrame recordOfFields
  split
  · simp [recordOk, convert, tenthsOf_le]
  · rfl

theorem recordOk_readingOfTimeout : recordOk readingOfTimeout = true := rfl

/-- A record the spec admits meets the Reading invariant (R31, R32, R34). -/
theorem Engine.readingOk_recordAttempt (e : Engine) {rd : ReadingRecord} (h : recordOk rd = true) :
    (e.recordAttempt rd).ReadingOk := by
  simp only [recordOk, Bool.and_eq_true, decide_eq_true_eq] at h
  obtain ⟨⟨hflags, hzero⟩, hhum, htemp⟩ := h
  refine ⟨fun ht => ?_, fun hv => ?_, hhum, htemp⟩
  · simpa [show rd.timedOut = true from ht] using hflags
  · simpa [show rd.isValid = false from hv] using hzero

/-! ## What a step does to the registers -/

/-- In its present state the engine retires its attempt with the record `rd` (R86, R87). -/
inductive Engine.Retires (e : Engine) : ReadingRecord → Prop
  | frame (hst : e.st = .success) : e.Retires (readingOfFrame e.frame)
  | timeout (hst : e.st = .timedOut) : e.Retires readingOfTimeout

/-- The registers a step from `s` can lead to, case by case, each with its guard (R80 to R87, R120,
R121, R123, R160). -/
inductive State.StepTo (s : State) : Engine → Prop
  | reset (hrst : s.inp.rst = true) : s.StepTo Engine.reset
  | stayIdle (hst : s.eng.st = .idle) (hstart : s.inp.start = false) : s.StepTo s.eng
  | accept (hst : s.eng.st = .idle) (hstart : s.inp.start = true)
      (hpos : 0 < s.inp.maxRetries.toInt) (hclock : s.inp.sample.tps ≠ 0#64) :
      s.StepTo ((s.eng.acceptCommand s.inp.maxRetries).startAttempt s.inp)
  | keepHolding (hst : s.eng.st = .signalingReset) (hin : ¬s.inp.sample.millis > s.eng.deadline) :
      s.StepTo s.eng
  | release (hst : s.eng.st = .signalingReset) (hlate : s.inp.sample.millis > s.eng.deadline) :
      s.StepTo (s.eng.release s.inp)
  | timeOut (hst : s.eng.st = .awaitingResponse ∨ s.eng.st = .capturingBits)
      (hlate : s.inp.sample.millis > s.eng.deadline) :
      s.StepTo { s.eng with st := .timedOut }
  | openCapture (hst : s.eng.st = .awaitingResponse)
      (hin : ¬s.inp.sample.millis > s.eng.deadline) (hrise : s.eng.RisingSeen s.inp) :
      s.StepTo { s.eng with
        deadline := deadlineAfter (nowMillis s.inp) Config.tCaptureMs
        prevLevel := .high, st := .capturingBits }
  | watch (hst : s.eng.st = .awaitingResponse ∧ ¬s.eng.RisingSeen s.inp ∨
        s.eng.st = .capturingBits ∧ ¬s.eng.FallingSeen s.inp)
      (hin : ¬s.inp.sample.millis > s.eng.deadline) :
      s.StepTo { s.eng with prevLevel := s.inp.sample.lvl }
  | edge (hst : s.eng.st = .capturingBits) (hin : ¬s.inp.sample.millis > s.eng.deadline)
      (hfall : s.eng.FallingSeen s.inp) :
      s.StepTo { s.eng.fallingEdge s.inp.sample.ticks with prevLevel := .low }
  | finish {rd : ReadingRecord} (hrd : s.eng.Retires rd)
      (hend : rd.isValid = true ∨ s.eng.attempt.toNat + 1 = s.eng.maxr.toNat) :
      s.StepTo (s.eng.recordAttempt rd).finish
  | retry {rd : ReadingRecord} (hrd : s.eng.Retires rd) (hinvalid : rd.isValid = false)
      (hleft : s.eng.attempt.toNat + 1 ≠ s.eng.maxr.toNat) (hclock : s.inp.sample.tps ≠ 0#64) :
      s.StepTo ((s.eng.recordAttempt rd).startAttempt s.inp)

theorem stepTo_of_execAwait {s u : State} (hst : s.eng.st = .awaitingResponse)
    (h : execAwait s = .next u) : s.StepTo u.eng := by
  obtain ⟨hlate, rfl⟩ | ⟨hin, rfl⟩ := execAwait_next h
  · exact .timeOut (.inl hst) hlate
  · obtain ⟨hl, he⟩ | ⟨hp, hl, he⟩ | ⟨hp, hl, he⟩ := s.eng.awaitLevel_cases s.inp
    · have hw := State.StepTo.watch (.inl ⟨hst, fun ⟨hp, hh⟩ => by simp [hl, hp] at hh⟩) hin
      rwa [hl, ← he] at hw
    · have ho := State.StepTo.openCapture hst hin ⟨hp, hl⟩
      rwa [← he] at ho
    · have hw := State.StepTo.watch (.inl ⟨hst, by simp [hl]⟩) hin
      rwa [hl, ← he] at hw

theorem stepTo_of_execCapture {s u : State} (hst : s.eng.st = .capturingBits)
    (h : execCapture s = .next u) : s.StepTo u.eng := by
  obtain ⟨hlate, rfl⟩ | ⟨hin, rfl⟩ := execCapture_next h
  · exact .timeOut (.inr hst) hlate
  · obtain ⟨hp, hl, he⟩ | ⟨hn, he⟩ := s.eng.captureLevel_cases s.inp
    · simpa [he] using State.StepTo.edge hst hin ⟨hp, hl⟩
    · simpa [he] using State.StepTo.watch (.inr ⟨hst, hn⟩) hin

theorem stepTo_of_retire {s u : State} {rd : ReadingRecord} (hrd : s.eng.Retires rd)
    (h : retire rd s = .next u) : s.StepTo u.eng := by
  obtain ⟨hend, rfl⟩ | ⟨hinvalid, hleft, hclock, rfl⟩ := retire_next h
  · exact .finish hrd hend
  · exact .retry hrd hinvalid hleft hclock

/-- The operation that `start` and `ST` select does one of the listed things. -/
theorem stepTo_of_exec_fetch {s u : State} (h : exec s.fetch s = .next u) : s.StepTo u.eng := by
  rw [fetch_eq] at h
  cases hst : s.eng.st <;> simp only [hst] at h
  case idle =>
    cases hstart : s.inp.start <;> simp only [hstart, if_true, if_false, Bool.false_eq_true] at h
    · cases h; exact .stayIdle hst hstart
    · obtain ⟨-, hpos, hclock, rfl⟩ := getReading_next h
      exact .accept hst hstart hpos hclock
  case signalingReset =>
    obtain ⟨hlate, rfl⟩ | ⟨hin, rfl⟩ := execHold_next h
    · exact .release hst hlate
    · exact .keepHolding hst hin
  case awaitingResponse => exact stepTo_of_execAwait hst h
  case capturingBits => exact stepTo_of_execCapture hst h
  case success => exact stepTo_of_retire (.frame hst) h
  case timedOut => exact stepTo_of_retire (.timeout hst) h
  case reserved6 => cases h
  case reserved7 => cases h

/-- Every step that answers a next state does one of the listed things. -/
theorem step_stepTo {s t : State} (h : step s = .next t) : s.StepTo t.eng := by
  obtain ⟨hrst, rfl⟩ | ⟨-, -, u, hu, rfl⟩ := step_next h
  · exact .reset hrst
  · simpa using stepTo_of_exec_fetch hu

/-! ## What each change keeps of the invariants -/

theorem Engine.Retires.recordOk {e : Engine} {rd : ReadingRecord} (h : e.Retires rd) :
    recordOk rd = true := by
  cases h with
  | frame => exact recordOk_readingOfFrame _
  | timeout => exact recordOk_readingOfTimeout

theorem Engine.Retires.st_eq {e : Engine} {rd : ReadingRecord} (h : e.Retires rd) :
    e.st = .success ∨ e.st = .timedOut := by
  cases h with
  | frame hst => exact .inl hst
  | timeout hst => exact .inr hst

theorem Engine.Retires.not_idle {e : Engine} {rd : ReadingRecord} (h : e.Retires rd) :
    e.st ≠ .idle := by
  rcases h.st_eq with hst | hst <;> simp [hst]

theorem Engine.Retires.not_signalingReset {e : Engine} {rd : ReadingRecord} (h : e.Retires rd) :
    e.st ≠ .signalingReset := by
  rcases h.st_eq with hst | hst <;> simp [hst]

/-- While a command is in flight no result is shown as ready (item 9). -/
theorem Engine.DoneOk.done_eq_false {e : Engine} (h : e.DoneOk) (hst : e.st ≠ .idle) :
    e.done = false :=
  Bool.eq_false_iff.2 fun hd => hst (h hd).1

theorem Engine.doneOk_of_not_done {e : Engine} (h : e.done = false) : e.DoneOk := by
  simp [DoneOk, h]

theorem Engine.inv_reset : Engine.reset.Inv := by decide

/-- An attempt begins well with a budget that is not used up and no result shown as ready. -/
theorem Engine.inv_startAttempt {e : Engine} (x : Input) (hmaxr : e.maxr.toNat ≤ 2 ^ 31 - 1)
    (hleft : e.attempt.toNat < e.maxr.toNat) (hread : e.ReadingOk) (hdone : e.done = false) :
    (e.startAttempt x).Inv :=
  ⟨by simp [StateOk], by simp [PinOk], by simp [EdgesOk], by simp [FrameOk],
    fun _ => ⟨Nat.one_le_of_lt hleft, hmaxr, hleft⟩, hread, doneOk_of_not_done hdone⟩

theorem Engine.inv_accept {e : Engine} {n : Word32} (x : Input) (h : e.Inv) (hpos : 0 < n.toInt) :
    ((e.acceptCommand n).startAttempt x).Inv := by
  obtain ⟨-, -, -, -, -, hread, -⟩ := h
  obtain ⟨hone, hmax⟩ := toNat_bounds_of_toInt_pos hpos
  exact inv_startAttempt x hmax hone hread rfl

theorem Engine.inv_release {e : Engine} (x : Input) (h : e.Inv) (hst : e.st = .signalingReset) :
    (e.release x).Inv := by
  obtain ⟨-, ⟨-, hout⟩, ⟨hedges, -, -⟩, hframe, hbudget, hread, hdone⟩ := h
  have hd : e.done = false := hdone.done_eq_false (by simp [hst])
  exact ⟨by simp [StateOk], by simp [PinOk, hout], by simp [EdgesOk, hedges (.inl hst)],
    fun _ => hframe (.inl hst), fun _ => hbudget (by simp [hst]), hread, doneOk_of_not_done hd⟩

theorem Engine.inv_timeOut {e : Engine} (h : e.Inv)
    (hst : e.st = .awaitingResponse ∨ e.st = .capturingBits) :
    ({ e with st := .timedOut } : Engine).Inv := by
  obtain ⟨-, ⟨hmode, hout⟩, -, -, hbudget, hread, hdone⟩ := h
  have hbusy : e.st ≠ .idle ∧ e.st ≠ .signalingReset := by
    rcases hst with hst | hst <;> simp [hst]
  have hd : e.done = false := hdone.done_eq_false hbusy.1
  exact ⟨by simp [StateOk], by simp [PinOk, hmode, hbusy.2, hout], by simp [EdgesOk],
    by simp [FrameOk], fun _ => hbudget hbusy.1, hread, doneOk_of_not_done hd⟩

theorem Engine.inv_openCapture {e : Engine} (d : Word64) (h : e.Inv)
    (hst : e.st = .awaitingResponse) :
    ({ e with deadline := d, prevLevel := .high, st := .capturingBits } : Engine).Inv := by
  obtain ⟨-, ⟨hmode, hout⟩, ⟨hedges, -, -⟩, hframe, hbudget, hread, hdone⟩ := h
  have hd : e.done = false := hdone.done_eq_false (by simp [hst])
  exact ⟨by simp [StateOk], by simp [PinOk, hmode, hst, hout],
    by simp [EdgesOk, hedges (.inr hst)], fun _ => hframe (.inr (.inl hst)),
    fun _ => hbudget (by simp [hst]), hread, doneOk_of_not_done hd⟩

/-- No invariant speaks of PREV_LEVEL. -/
theorem Engine.inv_prevLevel_iff (e : Engine) (l : Level) :
    ({ e with prevLevel := l } : Engine).Inv ↔ e.Inv := Iff.rfl

/-- Shifting in the bit of edge number `EDGE_CNT` leaves the lower frame bits at 0 (item 6). -/
theorem Engine.frameAfterEdge_getLsbD_eq_false {e : Engine} (now : Word64) (hframe : e.FrameOk)
    (hst : e.st = .capturingBits) {p : Nat} (hlt : e.edgeCnt.toNat < 40)
    (hp : p ≤ 40 - (e.edgeCnt.toNat + 1)) : (e.frameAfterEdge now).getLsbD p = false := by
  have hclear : e.frame.getLsbD p = false :=
    hframe (.inr (.inr hst)) p (by omega) (by omega)
  unfold frameAfterEdge
  split
  · exact hclear
  · rename_i hne
    have hone : 1 ≤ e.edgeCnt.toNat := by
      by_contra hlow
      exact hne (BitVec.eq_of_toNat_eq (by simpa using hlow))
    rw [shiftIn_of_ok hone (by omega), setFrameBit_getLsbD _ _ (by omega), if_neg (by omega)]
    exact hclear

theorem Engine.inv_fallingEdge {e : Engine} (now : Word64) (h : e.Inv)
    (hst : e.st = .capturingBits) : (e.fallingEdge now).Inv := by
  obtain ⟨-, ⟨hmode, hout⟩, ⟨-, hedges, -⟩, hframe, hbudget, hread, hdone⟩ := h
  have hle : e.edgeCnt.toNat ≤ 40 := hedges hst
  have hcnt : (incEdge e.edgeCnt).toNat = e.edgeCnt.toNat + 1 := incEdge_toNat (by omega)
  have hbud := hbudget (by simp [hst])
  have hd : e.done = false := hdone.done_eq_false (by simp [hst])
  rcases hle.eq_or_lt with hlast | hlt
  · exact ⟨by simp [StateOk, hlast], by simp [PinOk, hlast, hmode, hst, hout],
      by simp [EdgesOk, hlast, hcnt], by simp [FrameOk, hlast], fun _ => hbud, hread,
      doneOk_of_not_done hd⟩
  · have hframe' : (e.fallingEdge now).FrameOk := fun _ p _ hp =>
      frameAfterEdge_getLsbD_eq_false now hframe hst hlt (hcnt ▸ hp)
    exact ⟨by simp [StateOk, hlt.ne, hst], by simp [PinOk, hlt.ne, hmode, hst, hout],
      by simp [EdgesOk, hlt.ne, hst, hcnt, Nat.succ_le_of_lt hlt], hframe', fun _ => hbud, hread,
      doneOk_of_not_done hd⟩

/-- Inside a command the attempt's index is `ATTEMPT` + 1 and at most `MAXR`. -/
theorem Engine.BudgetOk.incAttempt_toNat {e : Engine} (h : e.BudgetOk) (hst : e.st ≠ .idle) :
    (incAttempt e.attempt).toNat = e.attempt.toNat + 1 := by
  obtain ⟨-, hmax, hlt⟩ := h hst
  exact Machine.incAttempt_toNat (by omega)

theorem Engine.inv_finish {e : Engine} {rd : ReadingRecord} (h : e.Inv) (hrd : e.Retires rd)
    (hend : rd.isValid = true ∨ e.attempt.toNat + 1 = e.maxr.toNat) :
    (e.recordAttempt rd).finish.Inv := by
  obtain ⟨-, ⟨hmode, hout⟩, -, -, hbudget, -, -⟩ := h
  have hinc := hbudget.incAttempt_toNat hrd.not_idle
  have hshown : rd.isValid = true ∨ incAttempt e.attempt = e.maxr :=
    hend.imp_right fun heq => BitVec.eq_of_toNat_eq (hinc.trans heq)
  exact ⟨by simp [StateOk], by simp [PinOk, hmode, hrd.not_signalingReset, hout],
    by simp [EdgesOk], by simp [FrameOk], by simp [BudgetOk],
    e.readingOk_recordAttempt hrd.recordOk, fun _ => ⟨rfl, rfl, by simp [hinc], hshown⟩⟩

theorem Engine.inv_retry {e : Engine} {rd : ReadingRecord} (x : Input) (h : e.Inv)
    (hrd : e.Retires rd) (hleft : e.attempt.toNat + 1 ≠ e.maxr.toNat) :
    ((e.recordAttempt rd).startAttempt x).Inv := by
  obtain ⟨-, -, -, -, hbudget, -, hdone⟩ := h
  obtain ⟨-, hmax, hlt⟩ := hbudget hrd.not_idle
  have hinc := hbudget.incAttempt_toNat hrd.not_idle
  exact inv_startAttempt x hmax (by simp only [recordAttempt_attempt, recordAttempt_maxr]; omega)
    (e.readingOk_recordAttempt hrd.recordOk) (hdone.done_eq_false hrd.not_idle)

/-- The invariants of R35 are kept whatever a step does to the registers. -/
theorem State.StepTo.inv {s : State} {e' : Engine} (h : s.StepTo e') (hi : s.eng.Inv) :
    e'.Inv := by
  cases h with
  | reset => exact Engine.inv_reset
  | stayIdle => exact hi
  | accept _ _ hpos => exact Engine.inv_accept s.inp hi hpos
  | keepHolding => exact hi
  | release hst => exact Engine.inv_release s.inp hi hst
  | timeOut hst => exact Engine.inv_timeOut hi hst
  | openCapture hst => exact Engine.inv_openCapture _ hi hst
  | watch => exact (s.eng.inv_prevLevel_iff _).2 hi
  | edge hst => exact (Engine.inv_prevLevel_iff _ _).2 (Engine.inv_fallingEdge _ hi hst)
  | finish hrd hend => exact Engine.inv_finish hi hrd hend
  | retry hrd _ hleft => exact Engine.inv_retry s.inp hi hrd hleft

/-! ## Which steps begin an attempt -/

theorem State.beginsAttempt_of_idle {s : State} (hst : s.eng.st = .idle) :
    s.BeginsAttempt ↔ s.inp.start = true ∧ 1 ≤ s.inp.maxRetries.toInt := by
  simp [State.BeginsAttempt, hst]

/-- The three states in which an attempt is under way begin none. -/
theorem State.not_beginsAttempt_of_waiting {s : State}
    (hst : s.eng.st = .signalingReset ∨ s.eng.st = .awaitingResponse ∨ s.eng.st = .capturingBits) :
    ¬s.BeginsAttempt := by
  rcases hst with hst | hst | hst <;> simp [State.BeginsAttempt, hst]

theorem State.beginsAttempt_of_retires {s : State} {rd : ReadingRecord} (hrd : s.eng.Retires rd) :
    s.BeginsAttempt ↔ rd.isValid = false ∧ s.eng.attempt.toNat + 1 ≠ s.eng.maxr.toNat := by
  cases hrd with
  | frame hst => simp [State.BeginsAttempt, hst, ← readingOfFrame_isValid_iff]
  | timeout hst => simp [State.BeginsAttempt, hst, readingOfTimeout]

/-- With `rst` released THRESHOLD changes exactly where an attempt begins. -/
theorem State.StepTo.threshold {s : State} {e' : Engine} (h : s.StepTo e')
    (hrst : s.inp.rst = false) :
    s.BeginsAttempt ∧ e'.threshold = thresh s.inp.sample.tps ∨
      ¬s.BeginsAttempt ∧ e'.threshold = s.eng.threshold := by
  cases h with
  | reset hr => simp [hrst] at hr
  | stayIdle hst hstart => exact .inr ⟨by simp [s.beginsAttempt_of_idle hst, hstart], rfl⟩
  | accept hst hstart hpos => exact .inl ⟨(s.beginsAttempt_of_idle hst).2 ⟨hstart, hpos⟩, rfl⟩
  | keepHolding hst => exact .inr ⟨s.not_beginsAttempt_of_waiting (.inl hst), rfl⟩
  | release hst => exact .inr ⟨s.not_beginsAttempt_of_waiting (.inl hst), rfl⟩
  | timeOut hst => exact .inr ⟨s.not_beginsAttempt_of_waiting (.inr hst), rfl⟩
  | openCapture hst => exact .inr ⟨s.not_beginsAttempt_of_waiting (.inr (.inl hst)), rfl⟩
  | watch hst =>
    exact .inr ⟨s.not_beginsAttempt_of_waiting (.inr (hst.imp And.left And.left)), rfl⟩
  | edge hst => exact .inr ⟨s.not_beginsAttempt_of_waiting (.inr (.inr hst)), rfl⟩
  | finish hrd hend =>
    refine .inr ⟨fun hb => ?_, rfl⟩
    obtain ⟨hinvalid, hleft⟩ := (s.beginsAttempt_of_retires hrd).1 hb
    exact hend.elim (by simp [hinvalid]) hleft
  | retry hrd hinvalid hleft =>
    exact .inl ⟨(s.beginsAttempt_of_retires hrd).2 ⟨hinvalid, hleft⟩, rfl⟩

/-! ## What the pin shows in a state that meets the invariants -/

theorem Engine.PinOk.lineDrive_eq {e : Engine} (h : e.PinOk) :
    e.lineDrive = if e.st = .signalingReset then some .low else none := by
  obtain ⟨hmode, hout⟩ := h
  cases hm : e.pinMode <;> simp [lineDrive, hm, hout, ← hmode]

theorem PinMode.code_eq_one_iff (m : PinMode) : m.code = 1#1 ↔ m = .output := by
  cases m <;> decide

/-! ## The obligations -/

/-- Settles O11: each change a step can make to the registers keeps the invariants. -/
theorem everyStepKeepsTheInvariants : Obligations.EveryStepKeepsTheInvariants :=
  fun _ _ hi h => (step_stepTo h).inv hi

/-- Settles O47: the two changes that write the Reading are retirements, which only Success and
TimedOut select. -/
theorem onlyRetirementWritesTheReading : Obligations.OnlyRetirementWritesTheReading := by
  intro s t hrst h hsucc htime
  have hno : ∀ rd, ¬s.eng.Retires rd := fun _ hrd => hrd.st_eq.elim hsucc htime
  have hto := step_stepTo h
  generalize t.eng = e' at hto
  cases hto with
  | reset hr => simp [hrst] at hr
  | accept => exact ⟨rfl, by simp⟩
  | finish hrd => exact absurd hrd (hno _)
  | retry hrd => exact absurd hrd (hno _)
  | _ => exact ⟨rfl, id⟩

/-- Settles O48: THRESHOLD is written where an attempt begins, and THRESH does not wrap. -/
theorem thresholdIsComputedOncePerAttempt : Obligations.ThresholdIsComputedOncePerAttempt := by
  intro s t hrst h
  obtain ⟨hbegins, hthr⟩ | ⟨hnot, hthr⟩ := (step_stepTo h).threshold hrst
  · exact ⟨fun _ => hthr ▸ thresh_toNat _, fun hn => absurd hbegins hn⟩
  · exact ⟨fun hb => absurd hb hnot, fun _ => hthr⟩

/-- Settles O54, by items 3 and 4 of the invariants after the step. -/
theorem lineIsDrivenLowOnlyInSignalingReset : Obligations.LineIsDrivenLowOnlyInSignalingReset := by
  intro s t hi h
  obtain ⟨-, hpin, -⟩ := everyStepKeepsTheInvariants s t hi h
  rw [hpin.lineDrive_eq]
  exact ⟨fun hst => if_pos hst, fun hst => if_neg hst⟩

/-- Settles O57, by items 3 and 4 of the invariants after the step. -/
theorem pinBitsFollowTheState : Obligations.PinBitsFollowTheState := by
  intro s t hi h
  obtain ⟨-, ⟨hmode, hout⟩, -⟩ := everyStepKeepsTheInvariants s t hi h
  exact ⟨congrArg Level.code hout, (PinMode.code_eq_one_iff _).trans hmode⟩

/-- Settles O8: the table of R39, row by row. -/
theorem resetValuesOfEveryRegister : Obligations.ResetValuesOfEveryRegister := by
  unfold Obligations.ResetValuesOfEveryRegister
  decide

/-- Settles O10: the reset engine is idle, released, without a command. -/
theorem resetMeetsTheInvariants : Obligations.ResetMeetsTheInvariants :=
  Engine.inv_reset

end Sys2Proof.Machine
end

section
/-! SUPPORT. The clock port (R46): where an attempt would begin and TicksPerSecond is 0, the
operation is refused. And the port use of R49: each operation's registers as a function of the
sample fields it reads, and the agreement of two inputs that show the same fields. -/

namespace Sys2Proof.Machine

/-! ## Where an attempt would begin -/

theorem beginAttempt_of_tps_eq_zero {s : State} (h : s.inp.sample.tps = 0#64) :
    beginAttempt s = .refused .clockUnavailable := if_pos h

/-- An accepted command is the writes of R121 and then BEGIN_ATTEMPT. -/
theorem getReading_of_accepted {n : Word32} {s : State} (hst : s.eng.st = .idle)
    (hn : 1 ≤ n.toInt) :
    getReading n s = beginAttempt { s with eng := s.eng.acceptCommand n } := by
  have hbusy : ¬s.eng.busy = true := by simp [hst]
  have hbudget : budgetOk n = true := (budgetOk_iff n).2 hn
  rw [getReading, if_neg hbusy, if_pos hbudget]

/-- A retirement that ends the command returns the Reading. -/
theorem retire_of_commandEnds {rd : ReadingRecord} {s : State}
    (h : s.eng.commandEnds rd = true) :
    retire rd s = .next { s with eng := (s.eng.recordAttempt rd).finish } := if_pos h

/-- Any other retirement is the writes of R123 and then BEGIN_ATTEMPT. -/
theorem retire_of_not_commandEnds {rd : ReadingRecord} {s : State}
    (h : ¬s.eng.commandEnds rd = true) :
    retire rd s = beginAttempt { s with eng := s.eng.recordAttempt rd } := if_neg h

/-! ## The waiting states always run -/

theorem execHold_eq (s : State) :
    execHold s = .next { s with
      eng := if s.inp.sample.millis > s.eng.deadline then s.eng.release s.inp else s.eng } := by
  simp only [execHold, nextEngine, deadlinePassed_iff]
  split <;> rfl

theorem execAwait_eq (s : State) :
    execAwait s = .next { s with
      eng := if s.inp.sample.millis > s.eng.deadline then { s.eng with st := .timedOut }
        else s.eng.awaitLevel s.inp } := by
  simp only [execAwait, nextEngine, deadlinePassed_iff]
  split <;> rfl

theorem execCapture_eq (s : State) :
    execCapture s = .next { s with
      eng := if s.inp.sample.millis > s.eng.deadline then { s.eng with st := .timedOut }
        else s.eng.captureLevel s.inp } := by
  simp only [execCapture, nextEngine, deadlinePassed_iff]
  split <;> rfl

/-! ## The sample fields the register writes depend on -/

theorem Engine.startAttempt_congr (e : Engine) {x y : Input}
    (hmillis : x.sample.millis = y.sample.millis) (htps : x.sample.tps = y.sample.tps) :
    e.startAttempt x = e.startAttempt y := by
  simp only [Engine.startAttempt, nowMillis, ticksPerSecond, hmillis, htps]

theorem Engine.release_congr (e : Engine) {x y : Input}
    (hmillis : x.sample.millis = y.sample.millis) : e.release x = e.release y := by
  simp only [Engine.release, nowMillis, hmillis]

theorem Engine.awaitLevel_congr (e : Engine) {x y : Input}
    (hmillis : x.sample.millis = y.sample.millis) (hlvl : x.sample.lvl = y.sample.lvl) :
    e.awaitLevel x = e.awaitLevel y := by
  unfold Engine.awaitLevel
  rw [show pinRead x = pinRead y from hlvl, show nowMillis x = nowMillis y from hmillis]

/-- CAPTURE reads the tick counter at a falling edge only. -/
theorem Engine.captureLevel_congr (e : Engine) {x y : Input}
    (hlvl : x.sample.lvl = y.sample.lvl)
    (hticks : e.FallingSeen y → x.sample.ticks = y.sample.ticks) :
    e.captureLevel x = e.captureLevel y := by
  unfold Engine.captureLevel
  rw [show pinRead x = pinRead y from hlvl]
  by_cases hfall : e.prevLevel = .high ∧ pinRead y = .low
  · rw [show nowTicks x = nowTicks y from hticks hfall]
  · rw [if_neg hfall, if_neg hfall]

/-! ## Agreement of two outcomes -/

/-- Both executions run, and they leave the same registers. -/
def SameRegisters (o o' : Host.Outcome State Fault Refusal) : Prop :=
  ∃ t u, o = .next t ∧ o' = .next u ∧ t.eng = u.eng

section
variable {s : State} {x : Input} (hmillis : x.sample.millis = s.inp.sample.millis)
include hmillis

theorem execHold_sameRegisters : SameRegisters (execHold s) (execHold { s with inp := x }) :=
  ⟨_, _, execHold_eq s, execHold_eq _, by simp only [hmillis, s.eng.release_congr hmillis]⟩

theorem execAwait_sameRegisters (hlvl : x.sample.lvl = s.inp.sample.lvl) :
    SameRegisters (execAwait s) (execAwait { s with inp := x }) :=
  ⟨_, _, execAwait_eq s, execAwait_eq _, by
    simp only [hmillis, s.eng.awaitLevel_congr hmillis hlvl]⟩

theorem execCapture_sameRegisters (hlvl : x.sample.lvl = s.inp.sample.lvl)
    (hticks : s.eng.FallingSeen s.inp → x.sample.ticks = s.inp.sample.ticks) :
    SameRegisters (execCapture s) (execCapture { s with inp := x }) :=
  ⟨_, _, execCapture_eq s, execCapture_eq _, by
    simp only [hmillis, s.eng.captureLevel_congr hlvl hticks]⟩

variable (htps : x.sample.tps = s.inp.sample.tps) (hclock : x.sample.tps ≠ 0#64)
include htps hclock

theorem beginAttempt_sameRegisters :
    SameRegisters (beginAttempt s) (beginAttempt { s with inp := x }) :=
  ⟨_, _, beginAttempt_of_tps (htps ▸ hclock), beginAttempt_of_tps hclock,
    (s.eng.startAttempt_congr hmillis htps).symm⟩

theorem getReading_sameRegisters {n : Word32} (hst : s.eng.st = .idle) (hn : 1 ≤ n.toInt) :
    SameRegisters (getReading n s) (getReading n { s with inp := x }) := by
  rw [getReading_of_accepted hst hn, getReading_of_accepted (s := { s with inp := x }) hst hn]
  exact beginAttempt_sameRegisters (s := { s with eng := s.eng.acceptCommand n })
    hmillis htps hclock

theorem retire_sameRegisters (rd : ReadingRecord) :
    SameRegisters (retire rd s) (retire rd { s with inp := x }) := by
  by_cases hends : s.eng.commandEnds rd = true
  · exact ⟨_, _, retire_of_commandEnds hends, retire_of_commandEnds hends, rfl⟩
  · rw [retire_of_not_commandEnds hends,
      retire_of_not_commandEnds (s := { s with inp := x }) hends]
    exact beginAttempt_sameRegisters (s := { s with eng := s.eng.recordAttempt rd })
      hmillis htps hclock

end

/-! ## The obligations -/

/-- Settles O13: each of the three operations ends in BEGIN_ATTEMPT, which refuses. -/
theorem zeroFrequencyIsRefused : Obligations.ZeroFrequencyIsRefused := by
  intro s htps
  refine ⟨beginAttempt_of_tps_eq_zero htps, fun hst hn => ?_, fun rd hinvalid hleft => ?_⟩
  · exact (getReading_of_accepted hst hn).trans (beginAttempt_of_tps_eq_zero htps)
  · have hends : ¬s.eng.commandEnds rd = true := by
      simp [s.eng.commandEnds_iff, hinvalid, hleft]
    exact (retire_of_not_commandEnds hends).trans (beginAttempt_of_tps_eq_zero htps)

/-- Settles O52, operation by operation in the order of R49's table. -/
theorem unusedSampleFieldsHaveNoInfluence : Obligations.UnusedSampleFieldsHaveNoInfluence := by
  intro s x
  refine ⟨⟨_, rfl, rfl⟩, execHold_sameRegisters, execAwait_sameRegisters,
    execCapture_sameRegisters, fun hmillis htps hclock => ⟨fun hst hn hmaxr => ?_, ?_, ?_, ?_⟩⟩
  · change SameRegisters (getReading s.inp.maxRetries s) (getReading x.maxRetries _)
    rw [hmaxr]
    exact getReading_sameRegisters hmillis htps hclock hst hn
  · exact beginAttempt_sameRegisters hmillis htps hclock
  · exact retire_sameRegisters hmillis htps hclock (readingOfFrame s.eng.frame)
  · exact retire_sameRegisters hmillis htps hclock readingOfTimeout

end Sys2Proof.Machine
end

section
/-! SUPPORT. The three wide words over the natural numbers: each packs its fields side by side, so it
is the sum of the fields at their weights, and cutting the fields out again is division with
remainder. From this the round trips of the frame word (R63), the command word (R64) and the RD word
(R68), and of the decoder as a whole. -/

namespace Sys2Proof

/-! ## Fields packed side by side -/

/-- A field moved to its place in a wider word has its value times the weight of the place. -/
theorem toNat_setWidth_shiftLeft {n w k : Nat} (x : BitVec n) (h : n + k ≤ w) :
    (x.setWidth w <<< k).toNat = x.toNat * 2 ^ k := by
  have hbound : x.toNat * 2 ^ k < 2 ^ w := calc
    x.toNat * 2 ^ k < 2 ^ n * 2 ^ k := Nat.mul_lt_mul_of_pos_right x.isLt (Nat.two_pow_pos k)
    _ = 2 ^ (n + k) := (Nat.pow_add 2 n k).symm
    _ ≤ 2 ^ w := Nat.pow_le_pow_right (by omega) h
  have hx : x.toNat < 2 ^ w :=
    Nat.lt_of_lt_of_le x.isLt (Nat.pow_le_pow_right (by omega) (by omega))
  rw [BitVec.toNat_shiftLeft, BitVec.toNat_setWidth, Nat.mod_eq_of_lt hx, Nat.shiftLeft_eq,
    Nat.mod_eq_of_lt hbound]

/-- Under fields that lie above it, a field at the low end adds its value. -/
theorem or_toNat_eq_add {n a : Nat} (x : BitVec n) (h : 2 ^ n ∣ a) :
    a ||| x.toNat = a + x.toNat := by
  obtain ⟨q, rfl⟩ := h
  exact (Nat.two_pow_add_eq_or_of_lt x.isLt q).symm

/-- Under fields that lie above it, a field at place `k` adds its value times the weight of the
place. -/
theorem or_toNat_mul_eq_add {n a : Nat} (x : BitVec n) (k : Nat) (h : 2 ^ (n + k) ∣ a) :
    a ||| x.toNat * 2 ^ k = a + x.toNat * 2 ^ k := by
  obtain ⟨q, rfl⟩ := h
  rw [Nat.pow_add, Nat.mul_right_comm, ← Nat.shiftLeft_eq, ← Nat.shiftLeft_eq,
    ← Nat.shiftLeft_or_distrib, or_toNat_eq_add x (Nat.dvd_mul_right _ _), Nat.shiftLeft_eq,
    Nat.shiftLeft_eq, Nat.shiftLeft_eq, Nat.add_mul]

theorem bool_toNat_inj {b b' : Bool} : b.toNat = b'.toNat ↔ b = b' :=
  (Function.LeftInverse.injective Bool.ofNat_toNat).eq_iff

theorem toNat_getLsbD {w : Nat} (x : BitVec w) (i : Nat) :
    (x.getLsbD i).toNat = x.toNat / 2 ^ i % 2 :=
  Nat.toNat_testBit x.toNat i

/-! ## The frame word -/

theorem frameOfFields_toNat (h g t u c : Byte) :
    (frameOfFields h g t u c).toNat =
      h.toNat * 2 ^ 32 + g.toNat * 2 ^ 24 + t.toNat * 2 ^ 16 + u.toNat * 2 ^ 8 + c.toNat := by
  simp (disch := omega) only [frameOfFields, BitVec.toNat_or, toNat_setWidth_shiftLeft,
    BitVec.toNat_setWidth_of_le, or_toNat_mul_eq_add, or_toNat_eq_add]

/-- The word of five fields splits into them (R63, R110). -/
theorem fields_frameOfFields (h g t u c : Byte) :
    Machine.fields (frameOfFields h g t u c) = ⟨h, g, t, u, c⟩ := by
  have hh := h.isLt
  have hg := g.isLt
  have ht := t.isLt
  have hu := u.isLt
  have hc := c.isLt
  simp only [Machine.fields, Fields.mk.injEq, ← BitVec.toNat_inj, BitVec.extractLsb'_toNat,
    frameOfFields_toNat, Nat.shiftRight_eq_div_pow]
  omega

/-- The fields of a frame put together again are the frame. -/
theorem frameOfFields_fields (w : FrameWord) :
    frameOfFields (w.extractLsb' 32 8) (w.extractLsb' 24 8) (w.extractLsb' 16 8)
      (w.extractLsb' 8 8) (w.extractLsb' 0 8) = w := by
  have hw := w.isLt
  simp only [← BitVec.toNat_inj, frameOfFields_toNat, BitVec.extractLsb'_toNat,
    Nat.shiftRight_eq_div_pow]
  omega

theorem decodeF40_frameOfFields (h g t u c : Byte) :
    decodeF40 (frameOfFields h g t u c) = .f40 h g t u c :=
  congrArg (fun f : Fields => Instr.f40 f.humidityInt f.humidityFrac f.temperatureInt
    f.temperatureFrac f.checksum) (fields_frameOfFields h g t u c)

theorem encode_decodeF40 (w : FrameWord) : encode (decodeF40 w) = some (.f40 w) :=
  congrArg (fun f => some (Code.f40 f)) (frameOfFields_fields w)

/-! ## The command word -/

theorem cmdWord_toNat (n : Word32) : (cmdWord n).toNat = 2 ^ 32 + n.toNat := by
  have hstart : (1#33 <<< 32).toNat = 2 ^ 32 := by decide
  simp (disch := omega) only [cmdWord, BitVec.toNat_or, hstart, BitVec.toNat_setWidth_of_le,
    or_toNat_eq_add]

/-- The start bit of a command word is its highest bit (R64). -/
theorem cmdStart_iff (w : BitVec 33) : w.getLsbD 32 = true ↔ 2 ^ 32 ≤ w.toNat := by
  have hmsb : w.getLsbD 32 = w.msb := w.msb_eq_getLsbD_last.symm
  rw [hmsb, w.msb_eq_decide, decide_eq_true_iff]

theorem extractLsb'_cmdWord (n : Word32) : (cmdWord n).extractLsb' 0 32 = n := by
  have hn := n.isLt
  simp only [← BitVec.toNat_inj, BitVec.extractLsb'_toNat, cmdWord_toNat, Nat.shiftRight_zero]
  omega

theorem cmdWord_extractLsb' {w : BitVec 33} (h : 2 ^ 32 ≤ w.toNat) :
    cmdWord (w.extractLsb' 0 32) = w := by
  have hw := w.isLt
  simp only [← BitVec.toNat_inj, cmdWord_toNat, BitVec.extractLsb'_toNat, Nat.shiftRight_zero]
  omega

/-- With the start bit a command word is the command of its operand, spelled canonically (R64,
R74). -/
theorem decodeCmd_of_start {w : BitVec 33} (h : 2 ^ 32 ≤ w.toNat) :
    decodeCmd w = .ok (Instr.cmd (w.extractLsb' 0 32)).canonical := by
  rw [decodeCmd, if_pos ((cmdStart_iff w).2 h), Instr.canonical]
  split <;> rfl

/-- Without the start bit a command word is no command (R64). -/
theorem decodeCmd_of_no_start {w : BitVec 33} (h : w.toNat < 2 ^ 32) :
    decodeCmd w = .error .noCommand :=
  if_neg (mt (cmdStart_iff w).1 (Nat.not_le_of_lt h))

theorem decodeCmd_cmdWord (n : Word32) : decodeCmd (cmdWord n) = .ok (Instr.cmd n).canonical := by
  have hstart : 2 ^ 32 ≤ (cmdWord n).toNat := by rw [cmdWord_toNat]; omega
  rw [decodeCmd_of_start hstart, extractLsb'_cmdWord]

theorem encode_of_decodeCmd {w : BitVec 33} {i : Instr} (h : decodeCmd w = .ok i) :
    encode i = some (.cmd w) := by
  rcases Nat.lt_or_ge w.toNat (2 ^ 32) with hlt | hstart
  · rw [decodeCmd_of_no_start hlt] at h
    cases h
  · rw [decodeCmd_of_start hstart] at h
    cases h
    obtain ⟨hcanonical, -, -⟩ := Laws.Spelling.cmd (w.extractLsb' 0 32)
    rw [hcanonical, encode, cmdWord_extractLsb' hstart]

theorem decodeCmd_eq_noCommand_iff (w : BitVec 33) :
    decodeCmd w = .error .noCommand ↔ w.toNat < 2 ^ 32 := by
  refine ⟨fun h => ?_, decodeCmd_of_no_start⟩
  by_contra hstart
  rw [decodeCmd_of_start (Nat.le_of_not_lt hstart)] at h
  cases h

/-! ## The RD word -/

theorem rdWordOfReading_toNat (r : Reading) :
    (rdWordOfReading r).toNat =
      r.timedOut.toNat * 2 ^ 57 + r.isValid.toNat * 2 ^ 56 + r.humTenths.toNat * 2 ^ 44 +
        r.tempTenths.toNat * 2 ^ 32 + r.retryCount.toNat := by
  rw [← BitVec.toNat_ofBool r.timedOut, ← BitVec.toNat_ofBool r.isValid]
  simp (disch := omega) only [rdWordOfReading, BitVec.toNat_or, toNat_setWidth_shiftLeft,
    BitVec.toNat_setWidth_of_le, or_toNat_mul_eq_add, or_toNat_eq_add]

/-- Each signal by its place in the RD word, in the order of R68. -/
theorem rdWordOfReading_positions (r : Reading) :
    (rdWordOfReading r).toNat / 2 ^ 57 = r.timedOut.toNat ∧
    (rdWordOfReading r).toNat / 2 ^ 56 % 2 = r.isValid.toNat ∧
    (rdWordOfReading r).toNat / 2 ^ 44 % 2 ^ 12 = r.humTenths.toNat ∧
    (rdWordOfReading r).toNat / 2 ^ 32 % 2 ^ 12 = r.tempTenths.toNat ∧
    (rdWordOfReading r).toNat % 2 ^ 32 = r.retryCount.toNat := by
  have htimedOut := r.timedOut.toNat_lt
  have hisValid := r.isValid.toNat_lt
  have hhum := r.humTenths.isLt
  have htemp := r.tempTenths.isLt
  have hretry := r.retryCount.isLt
  rw [rdWordOfReading_toNat]
  omega

theorem readingOfRdWord_rdWordOfReading (r : Reading) :
    readingOfRdWord (rdWordOfReading r) = r := by
  cases r with
  | mk timedOut isValid humTenths tempTenths retryCount =>
    have htop := timedOut.toNat_lt
    have hpos := rdWordOfReading_positions ⟨timedOut, isValid, humTenths, tempTenths, retryCount⟩
    dsimp only at hpos
    simp only [readingOfRdWord, Reading.mk.injEq, ← bool_toNat_inj, toNat_getLsbD,
      ← BitVec.toNat_inj, BitVec.extractLsb'_toNat, Nat.shiftRight_eq_div_pow]
    omega

theorem rdWordOfReading_readingOfRdWord (w : BitVec 58) :
    rdWordOfReading (readingOfRdWord w) = w := by
  have hw := w.isLt
  simp only [← BitVec.toNat_inj, rdWordOfReading_toNat, readingOfRdWord, toNat_getLsbD,
    BitVec.extractLsb'_toNat, Nat.shiftRight_eq_div_pow]
  omega

/-! ## The obligations -/

/-- Settles O2: a dispatch word by its row, a command word and a frame word by their round trips; no
other instruction has a word. -/
theorem decodeInvertsEncode : Obligations.DecodeInvertsEncode := by
  intro i c h
  cases i
  case beginAttempt | retire | thresh | duration | decodebit | shiftin | fields | chksum | convert |
    readingOfFrame | readingOfTimeout | rd => cases h
  case reserved b => cases h; cases b <;> rfl
  case f40 h g t u c => cases h; exact congrArg Except.ok (decodeF40_frameOfFields h g t u c)
  case cmd n => cases h; exact decodeCmd_cmdWord n
  all_goals cases h; rfl

/-- Settles O3: frame words and command words by their round trips, the sixteen dispatch words one by
one. -/
theorem encodeInvertsDecode : Obligations.EncodeInvertsDecode := by
  refine ⟨fun w i h => ?_, fun w i h => encode_of_decodeCmd h, decodeCmd_eq_noCommand_iff,
    by decide⟩
  cases h
  exact encode_decodeF40 w

/-- Settles O4, over the sum of the five signals at their places. -/
theorem readingWordRoundTrip : Obligations.ReadingWordRoundTrip :=
  ⟨readingOfRdWord_rdWordOfReading, rdWordOfReading_readingOfRdWord, rdWordOfReading_positions⟩

/-- Settles O1: the opcode map, word by word. -/
theorem dispatchWordsSelectOperations : Obligations.DispatchWordsSelectOperations := by
  unfold Obligations.DispatchWordsSelectOperations
  decide

end Sys2Proof
end

section
/-! SUPPORT. The words as the machine runs them: what an accepted command writes (R82, R121), which
operation a dispatch word runs in a step (R80), and the record a frame word shows (R113). -/

namespace Sys2Proof.Machine

/-! ## An accepted command -/

/-- The writes of BEGIN_ATTEMPT are the ones R82 lists. -/
theorem Engine.startAttempt_eq_begun (e : Engine) (x : Input) : e.startAttempt x = e.begun x := rfl

/-- In Idle, with a positive budget and a clock, a command is accepted and the first attempt begins
(R121). -/
theorem getReading_of_idle {n : Word32} {s : State} (hst : s.eng.st = .idle)
    (htps : s.inp.sample.tps ≠ 0#64) (hn : 1 ≤ n.toInt) :
    getReading n s = .next { s with
      eng := ({ s.eng with maxr := n, attempt := 0#32, done := false } : Engine).begun s.inp } := by
  rw [getReading_of_accepted hst hn, ← Engine.startAttempt_eq_begun]
  exact beginAttempt_of_tps htps

/-! ## The selected operation in a step -/

theorem fetch_of_idle_start {s : State} (hst : s.eng.st = .idle) (hstart : s.inp.start = true) :
    s.fetch = .getreading := by
  simp [fetch_eq, hst, hstart]

theorem fetch_of_reserved {s : State} (hst : s.eng.st = .reserved6 ∨ s.eng.st = .reserved7) :
    ∃ b, s.fetch = .reserved b := by
  obtain hst | hst := hst
  · exact ⟨false, by simp [fetch_eq, hst]⟩
  · exact ⟨true, by simp [fetch_eq, hst]⟩

/-- A strobe while busy is refused before the operation is looked at (R80, R122). -/
theorem step_of_strobe_while_busy {s : State} (hrst : s.inp.rst = false)
    (hstart : s.inp.start = true) (hst : s.eng.st ≠ .idle) :
    step s = .refused .commandWhileBusy := by
  have hbusy : s.eng.busy = true := (Engine.busy_iff _).2 hst
  simp [step, State.preempt, hrst, hstart, hbusy]

/-! ## The record of five fields -/

/-- A physical value as the rule writes it (R112). -/
theorem tenthsOf_eq_ofNat (int frac : Byte) :
    tenthsOf int frac = BitVec.ofNat 12 (10 * int.toNat + frac.toNat) := by
  rw [← tenthsOf_toNat, BitVec.ofNat_toNat, BitVec.setWidth_eq]

/-- The record of five fields as the rule writes it (R111 to R113). -/
theorem recordOfFields_eq (h g t u c : Byte) :
    recordOfFields ⟨h, g, t, u, c⟩ =
      if c.toNat = (h.toNat + g.toNat + t.toNat + u.toNat) % 256 then
        { timedOut := false, isValid := true
          humTenths := BitVec.ofNat 12 (10 * h.toNat + g.toNat)
          tempTenths := BitVec.ofNat 12 (10 * t.toNat + u.toNat) }
      else { timedOut := false, isValid := false, humTenths := 0#12, tempTenths := 0#12 } := by
  simp only [recordOfFields, checksumOk, chksum_iff, convert, tenthsOf_eq_ofNat]

/-! ## The codes of the pin -/

/-- The level code is the bit that is 1 for High (R67). -/
theorem Level.code_eq_ite (l : Level) : l.code = if l = .high then 1#1 else 0#1 := by
  cases l <;> rfl

/-- The mode code is the bit that is 1 for Output (R67). -/
theorem PinMode.code_eq_ite (m : PinMode) : m.code = if m = .output then 1#1 else 0#1 := by
  cases m <;> rfl

/-! ## The obligations -/

/-- Settles O37: the frame word splits into its five fields, whose record the rule gives. -/
theorem frameWordGivesItsRecord : Obligations.FrameWordGivesItsRecord := by
  intro h g t u c s
  change showResult s (.record (recordOfFields (fields (frameOfFields h g t u c)))) = _
  rw [fields_frameOfFields, recordOfFields_eq, showResult]

/-- Settles O5: neither `rst` nor a strobe while busy decides the step, so the fetched operation
runs. -/
theorem stepRunsTheSelectedOperation : Obligations.StepRunsTheSelectedOperation := by
  intro s hrst hstrobe
  rw [step_eq_finishStep hrst hstrobe, State.fetch, dispatchWord]
  cases hexec : exec (decodeSt3 (BitVec.ofBool s.inp.start ++ s.eng.st.code)) s with
  | next t =>
    obtain ⟨-, hscript, hstepNo⟩ := exec_inputs hexec
    rw [← hscript, ← hstepNo]
    rfl
  | fault f => rfl
  | refused r => rfl

/-- Settles O21: without a strobe the reserved row runs and refuses, with one the strobe is
refused. -/
theorem reservedCodesAreRefused : Obligations.ReservedCodesAreRefused := by
  refine ⟨fun _ _ => rfl, fun s hrst hst => ?_⟩
  have hrefused : s.inp.start = false → step s = .refused .reservedState := fun hstart => by
    obtain ⟨b, hfetch⟩ := fetch_of_reserved hst
    rw [step_eq_finishStep hrst (by simp [hstart]), hfetch]
    rfl
  refine ⟨hrefused, ?_⟩
  cases hstart : s.inp.start with
  | false => exact ⟨_, hrefused hstart⟩
  | true =>
    have hbusy : s.eng.st ≠ .idle := by obtain hst | hst := hst <;> simp [hst]
    exact ⟨_, step_of_strobe_while_busy hrst hstart hbusy⟩

/-- Settles O40: both spellings are GETREADING with their own operand. -/
theorem commandWordsAcceptACommand : Obligations.CommandWordsAcceptACommand :=
  fun _ hst htps =>
    ⟨fun _ hn => getReading_of_idle hst htps hn, getReading_of_idle hst htps (by decide)⟩

/-- Settles O41: the strobe in Idle selects GETREADING, whose operand is `max_retries`. -/
theorem commandSignalsAreTheCommandWord : Obligations.CommandSignalsAreTheCommandWord := by
  intro s hrst hstart hst
  have hstep : step s = finishStep (exec (.cmd s.inp.maxRetries) s) := by
    rw [step_eq_finishStep hrst fun _ => hst, fetch_of_idle_start hst hstart]
    rfl
  refine ⟨hstep, fun htwenty => ?_⟩
  rw [hstep, htwenty]
  rfl

/-- Settles O46: the read shows the registers as they are, and the RD word loses none. -/
theorem readingSignalsShowTheRegisters : Obligations.ReadingSignalsShowTheRegisters :=
  fun s => ⟨rfl, readingOfRdWord_rdWordOfReading s.eng.reading, s.eng.busy_iff⟩

/-- Settles O56: each bit is the code of the level or of the mode it stands for. -/
theorem levelAndModeCodes : Obligations.LevelAndModeCodes :=
  ⟨rfl, rfl, rfl, rfl, Level.ofCode_code, PinMode.ofCode_code,
    fun x => Level.code_eq_ite x.sample.lvl, fun e =>
    ⟨Level.code_eq_ite e.pinOut, Level.code_eq_ite e.prevLevel, PinMode.code_eq_ite e.pinMode⟩⟩

end Sys2Proof.Machine
end

section
/-! SUPPORT. The acquisition operations case by case: what BEGIN_ATTEMPT, HOLD, AWAIT and CAPTURE do in
time and past the deadline (R82 to R85), how long a wait lasts (R88, R91), the account CAPTURE keeps of
the falling edges (R104), and the run of the hold (R176). -/

namespace Sys2Proof.Machine

/-! ## The waiting states in time and past the deadline -/

theorem execHold_of_late {s : State} (h : s.inp.sample.millis > s.eng.deadline) :
    execHold s = .next { s with eng := s.eng.release s.inp } := by
  rw [execHold_eq, if_pos h]

theorem execHold_of_inTime {s : State} (h : s.inp.sample.millis ≤ s.eng.deadline) :
    execHold s = .next s := by
  rw [execHold_eq, if_neg (BitVec.not_lt.2 h)]

theorem execAwait_of_late {s : State} (h : s.inp.sample.millis > s.eng.deadline) :
    execAwait s = .next { s with eng := { s.eng with st := .timedOut } } := by
  rw [execAwait_eq, if_pos h]

theorem execAwait_of_inTime {s : State} (h : s.inp.sample.millis ≤ s.eng.deadline) :
    execAwait s = .next { s with eng := s.eng.awaitLevel s.inp } := by
  rw [execAwait_eq, if_neg (BitVec.not_lt.2 h)]

theorem execCapture_of_late {s : State} (h : s.inp.sample.millis > s.eng.deadline) :
    execCapture s = .next { s with eng := { s.eng with st := .timedOut } } := by
  rw [execCapture_eq, if_pos h]

theorem execCapture_of_inTime {s : State} (h : s.inp.sample.millis ≤ s.eng.deadline) :
    execCapture s = .next { s with eng := s.eng.captureLevel s.inp } := by
  rw [execCapture_eq, if_neg (BitVec.not_lt.2 h)]

/-! ## The level in the response window -/

theorem Engine.awaitLevel_of_unchanged {e : Engine} {x : Input} (h : x.sample.lvl = e.prevLevel) :
    e.awaitLevel x = e := if_pos h

theorem Engine.awaitLevel_of_rising {e : Engine} {x : Input} (h : e.RisingSeen x) :
    e.awaitLevel x =
      { e with deadline := x.sample.millis + 10#64, prevLevel := .high, st := .capturingBits } := by
  obtain ⟨hprev, hlvl⟩ := h
  simp [awaitLevel, pinRead, nowMillis, deadlineAfter, Config.tCaptureMs, hprev, hlvl]

theorem Engine.awaitLevel_of_falling {e : Engine} {x : Input} (h : e.FallingSeen x) :
    e.awaitLevel x = { e with prevLevel := .low } := by
  obtain ⟨hprev, hlvl⟩ := h
  simp [awaitLevel, pinRead, hprev, hlvl]

/-! ## The level in the capture window -/

theorem Engine.captureLevel_of_not_falling {e : Engine} {x : Input} (h : ¬e.FallingSeen x) :
    e.captureLevel x = { e with prevLevel := x.sample.lvl } := by
  obtain ⟨hprev, hlvl, -⟩ | ⟨-, he⟩ := e.captureLevel_cases x
  · exact absurd ⟨hprev, hlvl⟩ h
  · exact he

theorem Engine.captureLevel_of_falling {e : Engine} {x : Input} (h : e.FallingSeen x) :
    e.captureLevel x = { e.fallingEdge x.sample.ticks with prevLevel := .low } := by
  obtain ⟨-, -, he⟩ | ⟨hno, -⟩ := e.captureLevel_cases x
  · exact he
  · exact absurd h hno

/-! ## A falling edge -/

theorem incEdge_of_lt {e : BitVec 6} (h : e.toNat < 63) : incEdge e = e + 1#6 :=
  if_pos (by omega)

/-- The first falling edge of an attempt closes no duration. -/
theorem Engine.fallingEdge_of_first {e : Engine} (now : Word64) (h : e.edgeCnt = 0#6) :
    e.fallingEdge now = { e with prevTime := now, edgeCnt := 1#6 } := by
  simp [fallingEdge, frameAfterEdge, incEdge, h]

/-- The writes of a falling edge; Success comes exactly with number 40 after the first (R85). -/
theorem Engine.fallingEdge_eq (e : Engine) (now : Word64) :
    e.fallingEdge now =
      { e with
        frame := e.frameAfterEdge now, prevTime := now, edgeCnt := incEdge e.edgeCnt
        st := if e.edgeCnt.toNat = 40 then .success else e.st } := by
  simp only [fallingEdge, Nat.reduceEqDiff]

/-- DECODEBIT of DURATION over the natural numbers (R101, R102). -/
theorem decodeBit_duration (now prev threshold : Word64) :
    decodeBit (duration now prev) threshold =
      decide ((now.toNat + 2 ^ 64 - prev.toNat) % 2 ^ 64 > threshold.toNat) := by
  have hdur : (duration now prev).toNat = (now.toNat + 2 ^ 64 - prev.toNat) % 2 ^ 64 := by
    rw [duration, BitVec.toNat_sub]
    omega
  simp only [decodeBit, gt_iff_lt, BitVec.lt_def, hdur]

/-- Falling edge number 1 to 40 after the first writes its own frame bit alone (R103). -/
theorem Engine.frameAfterEdge_getLsbD {e : Engine} (now : Word64) (h1 : 1 ≤ e.edgeCnt.toNat)
    (h40 : e.edgeCnt.toNat ≤ 40) (p : Nat) :
    (e.frameAfterEdge now).getLsbD p =
      if p = 40 - e.edgeCnt.toNat then decodeBit (duration now e.prevTime) e.threshold
      else e.frame.getLsbD p := by
  have hne : e.edgeCnt ≠ 0#6 := fun h0 => by simp [h0] at h1
  rw [frameAfterEdge, if_neg hne, shiftIn_of_ok h1 h40, setFrameBit_getLsbD _ _ (by omega)]

/-! ## How long a wait lasts -/

/-- Where the sum does not wrap, a count is past the deadline from one count after the budget on. -/
theorem deadlineAfter_lt_iff {m budget k : Word64} (h : m.toNat + budget.toNat < 2 ^ 64) :
    k > deadlineAfter m budget ↔ m.toNat + budget.toNat + 1 ≤ k.toNat := by
  rw [deadlineAfter, gt_iff_lt, BitVec.lt_def, BitVec.toNat_add, Nat.mod_eq_of_lt h,
    Nat.succ_le_iff]

theorem execHold_leaves_iff {s : State} (hst : s.eng.st = .signalingReset) :
    (∃ u, execHold s = .next u ∧ u.eng.st ≠ .signalingReset) ↔
      s.inp.sample.millis > s.eng.deadline := by
  refine ⟨fun ⟨u, hu, hne⟩ => ?_, fun hlate => ⟨_, execHold_of_late hlate, by simp⟩⟩
  obtain ⟨hlate, -⟩ | ⟨-, rfl⟩ := execHold_next hu
  · exact hlate
  · exact absurd hst hne

theorem Engine.awaitLevel_st_ne_timedOut {e : Engine} (x : Input) (hst : e.st ≠ .timedOut) :
    (e.awaitLevel x).st ≠ .timedOut := by
  obtain ⟨-, he⟩ | ⟨-, -, he⟩ | ⟨-, -, he⟩ := e.awaitLevel_cases x <;> simp [he, hst]

theorem Engine.captureLevel_st_ne_timedOut {e : Engine} (x : Input) (hst : e.st ≠ .timedOut) :
    (e.captureLevel x).st ≠ .timedOut := by
  obtain ⟨-, -, he⟩ | ⟨-, he⟩ := e.captureLevel_cases x
  · by_cases hlast : e.edgeCnt.toNat = 40 <;> simp [he, hlast, hst]
  · simpa [he] using hst

theorem execAwait_timesOut_iff {s : State} (hst : s.eng.st ≠ .timedOut) :
    (∃ u, execAwait s = .next u ∧ u.eng.st = .timedOut) ↔
      s.inp.sample.millis > s.eng.deadline := by
  refine ⟨fun ⟨u, hu, htime⟩ => ?_, fun hlate => ⟨_, execAwait_of_late hlate, rfl⟩⟩
  obtain ⟨hlate, -⟩ | ⟨-, rfl⟩ := execAwait_next hu
  · exact hlate
  · exact absurd htime (Engine.awaitLevel_st_ne_timedOut s.inp hst)

theorem execCapture_timesOut_iff {s : State} (hst : s.eng.st ≠ .timedOut) :
    (∃ u, execCapture s = .next u ∧ u.eng.st = .timedOut) ↔
      s.inp.sample.millis > s.eng.deadline := by
  refine ⟨fun ⟨u, hu, htime⟩ => ?_, fun hlate => ⟨_, execCapture_of_late hlate, rfl⟩⟩
  obtain ⟨hlate, -⟩ | ⟨-, rfl⟩ := execCapture_next hu
  · exact hlate
  · exact absurd htime (Engine.captureLevel_st_ne_timedOut s.inp hst)

/-! ## The account of edges -/

/-- Once an edge was seen, PREV_TIME is the last entry of the account. -/
theorem Engine.Tracks.prevTime_eq {e : Engine} {ts : List Word64} (h : e.Tracks ts)
    (hpos : 1 ≤ ts.length) : e.prevTime = ts.getD (ts.length - 1) 0#64 := by
  obtain ⟨-, hlast, -⟩ := h
  refine hlast _ ?_
  rw [List.getLast?_eq_getElem?, List.getD_eq_getElem?_getD,
    List.getElem?_eq_getElem (Nat.sub_one_lt_of_lt hpos), Option.getD_some]

/-- A falling edge appends its time to the account (R104). -/
theorem Engine.Tracks.fallingEdge {e : Engine} {ts : List Word64} (now : Word64) (h : e.Tracks ts)
    (hle : ts.length ≤ 40) : (e.fallingEdge now).Tracks (ts ++ [now]) := by
  have hprev := h.prevTime_eq
  obtain ⟨hcnt, -, hbits⟩ := h
  refine ⟨by simp [incEdge_toNat (show e.edgeCnt.toNat < 63 by omega), hcnt], by simp,
    fun i h1 h40 => ?_⟩
  have hold := hbits i h1 h40
  rw [fallingEdge_frame, fallingEdge_threshold, List.length_append, List.length_singleton]
  rcases Nat.eq_zero_or_pos ts.length with hzero | hpos
  · have hfirst : e.edgeCnt = 0#6 := BitVec.eq_of_toNat_eq (hcnt.trans hzero)
    rw [frameAfterEdge, if_pos hfirst, hold, hzero]
    simp [show ¬i < 1 by omega]
  · rw [frameAfterEdge_getLsbD now (by omega) (by omega)]
    rcases Nat.lt_trichotomy i ts.length with hlt | heq | hgt
    · rw [if_neg (by omega), hold, List.getD_append _ _ _ _ hlt,
        List.getD_append _ _ _ _ (by omega)]
      simp [hlt, show i < ts.length + 1 by omega]
    · rw [if_pos (by omega), hprev hpos, heq, List.getD_append_right _ _ _ _ le_rfl,
        List.getD_append _ _ _ _ (by omega)]
      simp [decodeBit, duration]
    · rw [if_neg (by omega), hold]
      simp [show ¬i < ts.length by omega, show ¬i < ts.length + 1 by omega]

/-! ## The run of the hold -/

/-- While inputs are fixed beforehand, a step presents them in order. -/
theorem State.advance_inputs_of_ne_nil {s : State} (h : s.script ≠ []) :
    s.advance.inp :: s.advance.script = s.script := by
  obtain ⟨y, ys, hscript⟩ := List.exists_cons_of_ne_nil h
  rw [hscript]
  exact advance_inputs (congrArg (s.inp :: ·) hscript)

section
variable {s : State} (hst : s.eng.st = .signalingReset) (hstart : s.inp.start = false)
  (hrst : s.inp.rst = false)
include hst hstart hrst

theorem step_of_signalingReset : step s = finishStep (execHold s) := by
  rw [step_eq_finishStep hrst (by simp [hstart]), fetch_eq, hst]
  rfl

theorem step_of_holding (hin : s.inp.sample.millis ≤ s.eng.deadline) :
    step s = .next s.advance := by
  rw [step_of_signalingReset hst hstart hrst, execHold_of_inTime hin, finishStep]

theorem step_of_release (hlate : s.inp.sample.millis > s.eng.deadline) :
    step s = .next ({ s with eng := s.eng.release s.inp } : State).advance := by
  rw [step_of_signalingReset hst hstart hrst, execHold_of_late hlate, finishStep]

end

/-! ## The obligations -/

/-- Settles O12: the register writes of `Engine.startAttempt`, gathered in one record. -/
theorem beginAttemptStartsTheResetPulse : Obligations.BeginAttemptStartsTheResetPulse :=
  fun _ htps => beginAttempt_of_tps htps

/-- Settles O14: the two branches of the deadline. -/
theorem holdReleasesAfterTheDeadline : Obligations.HoldReleasesAfterTheDeadline :=
  fun _ => ⟨execHold_of_late, execHold_of_inTime⟩

/-- Settles O15: the deadline first, then the three cases of the level. -/
theorem awaitTakesTheFirstRisingEdge : Obligations.AwaitTakesTheFirstRisingEdge := by
  refine fun s => ⟨execAwait_of_late, fun hin => ?_⟩
  have hexec : exec .await s = .next { s with eng := s.eng.awaitLevel s.inp } :=
    execAwait_of_inTime hin
  refine ⟨fun hsame => ?_, fun hprev hlvl => ?_, fun hprev hlvl => ?_⟩
  · rw [hexec, Engine.awaitLevel_of_unchanged hsame]
  · rw [hexec, Engine.awaitLevel_of_rising ⟨hprev, hlvl⟩]
  · rw [hexec, Engine.awaitLevel_of_falling ⟨hprev, hlvl⟩]

/-- Settles O16: the deadline first, then the two cases that close no duration. -/
theorem captureWithoutABit : Obligations.CaptureWithoutABit := by
  refine fun s => ⟨execCapture_of_late, fun hin => ⟨fun hno => ?_, fun hfall hfirst => ?_⟩⟩
  · rw [← Engine.captureLevel_of_not_falling hno]
    exact execCapture_of_inTime hin
  · refine (execCapture_of_inTime hin).trans ?_
    rw [Engine.captureLevel_of_falling hfall, Engine.fallingEdge_of_first _ hfirst]

/-- Settles O17: the frame of the falling edge, read bit by bit. -/
theorem captureWritesTheBitOfAFallingEdge : Obligations.CaptureWritesTheBitOfAFallingEdge := by
  intro s hin hfall h1 h40
  refine ⟨s.eng.frameAfterEdge s.inp.sample.ticks, fun p _ => ?_, ?_⟩
  · rw [Engine.frameAfterEdge_getLsbD _ h1 h40, decodeBit_duration]
  · refine (execCapture_of_inTime hin).trans ?_
    rw [Engine.captureLevel_of_falling hfall, Engine.fallingEdge_eq, incEdge_of_lt (by omega)]

/-- Settles O18: the falling edge writes as ever, and its number is not 40. -/
theorem captureBeyondTheLastEdgeStillRuns : Obligations.CaptureBeyondTheLastEdgeStillRuns := by
  intro s hin hfall hbeyond
  refine ⟨s.eng.frameAfterEdge s.inp.sample.ticks, incEdge s.eng.edgeCnt, incEdge_toNat,
    (execCapture_of_inTime hin).trans ?_⟩
  rw [Engine.captureLevel_of_falling hfall, Engine.fallingEdge_eq, if_neg (by omega)]

/-- Settles O23: each wait is entered with its deadline a budget after the entry. -/
theorem waitsLastTheirBudgetAndOneCount : Obligations.WaitsLastTheirBudgetAndOneCount := by
  intro s x hfit
  refine ⟨fun htps => ⟨_, beginAttempt_of_tps htps, ?_⟩,
    fun hlate => ⟨_, execHold_of_late hlate, ?_⟩,
    fun hin hrise => ⟨_, execAwait_of_inTime hin, ?_⟩⟩
  · exact (execHold_leaves_iff rfl).trans
      (deadlineAfter_lt_iff (budget := Config.tHoldMs) hfit)
  · exact (execAwait_timesOut_iff (by simp)).trans
      (deadlineAfter_lt_iff (budget := Config.tResponseMs)
        (show s.inp.sample.millis.toNat + 1 < 2 ^ 64 by omega))
  · rw [Engine.awaitLevel_of_rising hrise]
    exact (execCapture_timesOut_iff (by simp)).trans
      (deadlineAfter_lt_iff (budget := Config.tCaptureMs)
        (show s.inp.sample.millis.toNat + 10 < 2 ^ 64 by omega))

/-- Settles O30: only a falling edge adds to the account, and number 40 after the first ends it. -/
theorem captureKeepsTheAccountOfEdges : Obligations.CaptureKeepsTheAccountOfEdges := by
  intro s ts hst htracks hle hin
  refine ⟨_, execCapture_of_inTime hin, ?_⟩
  by_cases hfall : s.eng.FallingSeen s.inp
  · have hcnt : s.eng.edgeCnt.toNat = ts.length := htracks.1
    rw [Engine.captureLevel_of_falling hfall, if_pos hfall]
    refine ⟨rfl, htracks.fallingEdge _ hle, ?_⟩
    rw [and_iff_right hfall]
    simp [hcnt, hst]
  · rw [Engine.captureLevel_of_not_falling hfall, if_neg hfall]
    exact ⟨rfl, htracks, by simp [hst, hfall]⟩

/-- Settles O51, by induction over the samples that are not past the deadline. -/
theorem holdEndsAtTheFirstLateSample : Obligations.HoldEndsAtTheFirstLateSample := by
  intro s xs rest x hst hinp hxs hstart hrst hlate
  induction xs generalizing s with
  | nil =>
    obtain ⟨rfl, -⟩ := List.cons.inj hinp
    refine ⟨fun k hk => ?_, ?_⟩
    · obtain rfl := Nat.le_zero.1 hk
      exact ⟨s, run_zero s, rfl⟩
    · exact ⟨_, run_succ_of_next (step_of_release hst hstart hrst hlate) 0, rfl⟩
  | cons y ys ih =>
    obtain ⟨rfl, hscript⟩ := List.cons.inj hinp
    obtain ⟨⟨hs, hr, hin⟩, hys⟩ := List.forall_mem_cons.1 hxs
    have hstep := step_of_holding hst hs hr hin
    have hinp' : s.advance.inp :: s.advance.script = ys ++ x :: rest :=
      (State.advance_inputs_of_ne_nil (by simp [hscript])).trans hscript
    obtain ⟨hkeep, hend⟩ := ih s.advance hst hinp' hys hlate
    refine ⟨fun k hk => ?_, ?_⟩
    · cases k with
      | zero => exact ⟨s, run_zero s, rfl⟩
      | succ k =>
        rw [run_succ_of_next hstep]
        exact hkeep k (Nat.le_of_succ_le_succ hk)
    · rw [List.length_cons, run_succ_of_next hstep]
      exact hend

end Sys2Proof.Machine
end

section
/-! SUPPORT. The step as a transition: the retirements (R86, R87), in which cases a step has a next state
(R66, R80, R122, R46), which changes of `ST` it makes (R81), and how a command ends (R90). -/

namespace Sys2Proof.Machine

/-! ## Retirements -/

/-- The record of a complete frame is the one the rules give (R111 to R113). -/
theorem readingOfFrame_eq (f : FrameWord) : readingOfFrame f = recordByRule f := by
  simp only [readingOfFrame, fields, recordOfFields_eq, recordByRule, FrameValid,
    ← extractLsb'_toNat_eq_frameByte]

/-- A retirement of a valid record, or of the last attempt, returns the Reading (R123). -/
theorem retire_of_ends {rd : ReadingRecord} {s : State}
    (h : rd.isValid = true ∨ s.eng.attempt.toNat + 1 = s.eng.maxr.toNat) :
    retire rd s = .next { s with eng := s.eng.returned rd (incAttempt s.eng.attempt) } :=
  retire_of_commandEnds ((s.eng.commandEnds_iff rd).2 h)

/-- Any other retirement goes on with BEGIN_ATTEMPT (R123). -/
theorem retire_of_not_ends {rd : ReadingRecord} {s : State} (hinvalid : ¬rd.isValid = true)
    (hleft : s.eng.attempt.toNat + 1 ≠ s.eng.maxr.toNat) :
    retire rd s =
      beginAttempt { s with eng := s.eng.retired rd (incAttempt s.eng.attempt) } :=
  retire_of_not_commandEnds fun hends =>
    ((s.eng.commandEnds_iff rd).1 hends).elim hinvalid hleft

/-! ## In which cases a step has a next state -/

theorem getReading_of_budget_not_positive {n : Word32} {s : State} (hst : s.eng.st = .idle)
    (hn : n.toInt ≤ 0) : getReading n s = .refused .budgetNotPositive := by
  have hbusy : ¬s.eng.busy = true := by simp [hst]
  have hbudget : ¬budgetOk n = true := by simpa using hn
  rw [getReading, if_neg hbusy, if_neg hbudget]

theorem fetch_of_idle_no_start {s : State} (hst : s.eng.st = .idle)
    (hstart : s.inp.start = false) : s.fetch = .idle := by
  simp [fetch_eq, hst, hstart]

/-- In the two retiring states the retirement is the selected operation (R86, R87). -/
theorem exec_fetch_of_retires {s : State} {rd : ReadingRecord} (hrd : s.eng.Retires rd) :
    exec s.fetch s = retire rd s := by
  cases hrd with
  | frame hst => rw [fetch_eq, hst]; rfl
  | timeout hst => rw [fetch_eq, hst]; rfl

/-- In the three waiting states the selected operation always runs (R83 to R85). -/
theorem exec_fetch_of_waiting {s : State}
    (hst : s.eng.st = .signalingReset ∨ s.eng.st = .awaitingResponse ∨ s.eng.st = .capturingBits) :
    ∃ u, exec s.fetch s = .next u := by
  rw [fetch_eq]
  obtain hst | hst | hst := hst <;> rw [hst]
  · exact ⟨_, execHold_eq s⟩
  · exact ⟨_, execAwait_eq s⟩
  · exact ⟨_, execCapture_eq s⟩

/-- A retirement begins an attempt, or returns. -/
theorem exec_fetch_cases_of_retires {s : State} {rd : ReadingRecord} (hrd : s.eng.Retires rd) :
    (s.BeginsAttempt ∧ ∃ e, exec s.fetch s = beginAttempt { s with eng := e }) ∨
      (¬s.BeginsAttempt ∧ ∃ u, exec s.fetch s = .next u) := by
  rw [exec_fetch_of_retires hrd, s.beginsAttempt_of_retires hrd]
  by_cases hends : rd.isValid = true ∨ s.eng.attempt.toNat + 1 = s.eng.maxr.toNat
  · refine .inr ⟨fun ⟨hinvalid, hleft⟩ => ?_, _, retire_of_ends hends⟩
    exact hends.elim (by simp [hinvalid]) hleft
  · obtain ⟨hinvalid, hleft⟩ := not_or.1 hends
    exact .inl ⟨⟨by simpa using hinvalid, hleft⟩, _, retire_of_not_ends hinvalid hleft⟩

/-- Where neither a budget nor a reserved code is refused, the selected operation ends in
BEGIN_ATTEMPT exactly where the step begins an attempt, and otherwise it runs. -/
theorem exec_fetch_cases {s : State} (h6 : s.eng.st ≠ .reserved6) (h7 : s.eng.st ≠ .reserved7)
    (hbudget : s.eng.st = .idle → s.inp.start = true → 0 < s.inp.maxRetries.toInt) :
    (s.BeginsAttempt ∧ ∃ e, exec s.fetch s = beginAttempt { s with eng := e }) ∨
      (¬s.BeginsAttempt ∧ ∃ u, exec s.fetch s = .next u) := by
  have hwaiting (hw : s.eng.st = .signalingReset ∨ s.eng.st = .awaitingResponse ∨
      s.eng.st = .capturingBits) : ¬s.BeginsAttempt ∧ ∃ u, exec s.fetch s = .next u :=
    ⟨s.not_beginsAttempt_of_waiting hw, exec_fetch_of_waiting hw⟩
  cases hst : s.eng.st with
  | idle =>
    rw [s.beginsAttempt_of_idle hst]
    cases hstart : s.inp.start with
    | false =>
      rw [fetch_of_idle_no_start hst hstart]
      exact .inr ⟨by simp, s, rfl⟩
    | true =>
      have hpos := hbudget hst hstart
      rw [fetch_of_idle_start hst hstart]
      exact .inl ⟨⟨rfl, hpos⟩, _, getReading_of_accepted hst hpos⟩
  | signalingReset => exact .inr (hwaiting (.inl hst))
  | awaitingResponse => exact .inr (hwaiting (.inr (.inl hst)))
  | capturingBits => exact .inr (hwaiting (.inr (.inr hst)))
  | success => exact exec_fetch_cases_of_retires (.frame hst)
  | timedOut => exact exec_fetch_cases_of_retires (.timeout hst)
  | reserved6 => exact absurd hst h6
  | reserved7 => exact absurd hst h7

theorem exec_fetch_of_beginsAttempt {s : State} (h : s.BeginsAttempt) :
    ∃ e, exec s.fetch s = beginAttempt { s with eng := e } := by
  have hcode : s.eng.st ≠ .reserved6 ∧ s.eng.st ≠ .reserved7 := by
    constructor <;> (intro hst; simp [State.BeginsAttempt, hst] at h)
  have hbudget : s.eng.st = .idle → s.inp.start = true → 0 < s.inp.maxRetries.toInt :=
    fun hst _ => ((s.beginsAttempt_of_idle hst).1 h).2
  obtain ⟨-, hexec⟩ | ⟨hnot, -⟩ := exec_fetch_cases hcode.1 hcode.2 hbudget
  · exact hexec
  · exact absurd h hnot

/-- Each of the cases the spec refuses is a refusal. -/
theorem step_of_refusedCase {s : State} (hrst : s.inp.rst = false) (h : s.RefusedCase) :
    ∃ r, step s = .refused r := by
  by_cases hstrobe : s.inp.start = true ∧ s.eng.st ≠ .idle
  · exact ⟨_, step_of_strobe_while_busy hrst hstrobe.1 hstrobe.2⟩
  have hstep := step_eq_finishStep hrst fun hstart => by_contra fun hst => hstrobe ⟨hstart, hst⟩
  obtain hbusy | ⟨hstart, hst, hn⟩ | hst | hst | ⟨hbegins, htps⟩ := h
  · exact absurd hbusy hstrobe
  · have hexec : exec s.fetch s = .refused .budgetNotPositive := by
      rw [fetch_of_idle_start hst hstart]
      exact getReading_of_budget_not_positive hst hn
    exact ⟨_, by rw [hstep, hexec, finishStep]⟩
  · exact (reservedCodesAreRefused.2 s hrst (.inl hst)).2
  · exact (reservedCodesAreRefused.2 s hrst (.inr hst)).2
  · obtain ⟨e, hexec⟩ := exec_fetch_of_beginsAttempt hbegins
    have hrefused := hexec.trans (beginAttempt_of_tps_eq_zero htps)
    exact ⟨_, by rw [hstep, hrefused, finishStep]⟩

/-- Outside the refused cases the step has a next state. -/
theorem step_of_not_refusedCase {s : State} (hrst : s.inp.rst = false) (h : ¬s.RefusedCase) :
    ∃ t, step s = .next t := by
  simp only [State.RefusedCase, not_or] at h
  obtain ⟨hstrobe, hbudget, h6, h7, hclock⟩ := h
  have hstep := step_eq_finishStep hrst fun hstart => by_contra fun hst => hstrobe ⟨hstart, hst⟩
  have hpos : s.eng.st = .idle → s.inp.start = true → 0 < s.inp.maxRetries.toInt :=
    fun hst hstart => not_le.1 fun hn => hbudget ⟨hstart, hst, hn⟩
  obtain ⟨hbegins, e, hexec⟩ | ⟨-, u, hexec⟩ := exec_fetch_cases h6 h7 hpos
  · have hnext := hexec.trans (beginAttempt_of_tps fun htps => hclock ⟨hbegins, htps⟩)
    exact ⟨_, by rw [hstep, hnext, finishStep]⟩
  · exact ⟨_, by rw [hstep, hexec, finishStep]⟩

/-! ## The changes of the state register -/

/-- Every change a step makes to the registers makes one of the changes of `ST` in the table of R81. -/
theorem State.StepTo.transition {s : State} {e' : Engine} (h : s.StepTo e')
    (hrst : s.inp.rst = false) (hbudget : s.eng.BudgetOk) : s.eng.Transition s.inp e'.st := by
  unfold Engine.Transition
  cases h with
  | reset hr => simp [hrst] at hr
  | stayIdle hst hstart =>
    rw [hst]
    exact .inl ⟨hstart, rfl⟩
  | accept hst hstart hpos =>
    rw [hst]
    exact .inr ⟨hstart, hpos, rfl⟩
  | keepHolding hst hin =>
    rw [hst]
    exact .inl ⟨BitVec.not_lt.1 hin, rfl⟩
  | release hst hlate =>
    rw [hst]
    exact .inr ⟨hlate, rfl⟩
  | timeOut hst hlate =>
    obtain hst | hst := hst <;> rw [hst] <;> exact .inl ⟨hlate, rfl⟩
  | openCapture hst hin hrise =>
    rw [hst]
    exact .inr (.inl ⟨BitVec.not_lt.1 hin, hrise, rfl⟩)
  | watch hst hin =>
    obtain ⟨hst, hno⟩ | ⟨hst, hno⟩ := hst <;> rw [hst]
    · exact .inr (.inr ⟨BitVec.not_lt.1 hin, hno, rfl⟩)
    · exact .inr (.inr ⟨BitVec.not_lt.1 hin, fun hlast => hno hlast.1, rfl⟩)
  | edge hst hin hfall =>
    rw [hst]
    by_cases hlast : s.eng.edgeCnt = 40#6
    · exact .inr (.inl ⟨BitVec.not_lt.1 hin, hfall, hlast, by simp [hlast]⟩)
    · have hne : s.eng.edgeCnt.toNat ≠ 40 := fun hcnt => hlast (BitVec.eq_of_toNat_eq hcnt)
      exact .inr (.inr ⟨BitVec.not_lt.1 hin, fun hall => hlast hall.2, by simp [hne, hst]⟩)
  | finish hrd hend =>
    cases hrd with
    | frame hst =>
      rw [hst]
      exact .inl ⟨hend.imp_left (readingOfFrame_isValid_iff _).1, rfl⟩
    | timeout hst =>
      rw [hst]
      exact .inl ⟨hend.resolve_left (by simp [readingOfTimeout]), rfl⟩
  | retry hrd hinvalid hleft =>
    obtain ⟨-, -, hlt⟩ := hbudget hrd.not_idle
    have hmore : s.eng.attempt.toNat + 1 < s.eng.maxr.toNat := lt_of_le_of_ne hlt hleft
    cases hrd with
    | frame hst =>
      rw [hst]
      exact .inr ⟨by simp [← readingOfFrame_isValid_iff, hinvalid], hmore, rfl⟩
    | timeout hst =>
      rw [hst]
      exact .inr ⟨hmore, rfl⟩

/-! ## The obligations -/

/-- Settles O6: the refused cases are refused, and the others run. -/
theorem stepIsTotalOutsideTheRefusedCases : Obligations.StepIsTotalOutsideTheRefusedCases := by
  refine fun s hrst => ⟨⟨fun ⟨t, hnext⟩ hrefused => ?_, step_of_not_refusedCase hrst⟩,
    step_of_refusedCase hrst⟩
  obtain ⟨r, hr⟩ := step_of_refusedCase hrst hrefused
  cases hnext.symm.trans hr

/-- Settles O7, by the table's rows for each change a step can make. -/
theorem stepFollowsTheTransitionTable : Obligations.StepFollowsTheTransitionTable :=
  fun _ _ hrst hbudget h => (step_stepTo h).transition hrst hbudget

/-- Settles O19: the record is the frame's, and RETIRE does the rest. -/
theorem retireSRetiresTheFrame : Obligations.RetireSRetiresTheFrame := by
  intro s
  have hvalid : (recordByRule s.eng.frame).isValid = true ↔ FrameValid s.eng.frame := by
    rw [← readingOfFrame_eq, readingOfFrame_isValid_iff]
  have hexec : exec .retireS s = retire (recordByRule s.eng.frame) s :=
    congrArg (retire · s) (readingOfFrame_eq _)
  refine ⟨incAttempt s.eng.attempt, fun h => incAttempt_toNat (by omega), fun hends => ?_,
    fun hinvalid hleft htps => ?_⟩
  · rw [hexec, retire_of_ends (hends.imp_left hvalid.2)]
  · exact hexec.trans
      ((retire_of_not_ends (mt hvalid.1 hinvalid) hleft).trans (beginAttempt_of_tps htps))

/-- Settles O20: a timed-out attempt's record is never valid. -/
theorem retireTRecordsTheTimeout : Obligations.RetireTRecordsTheTimeout := by
  intro s
  have hexec : exec .retireT s = retire recordOfTimeoutByRule s := rfl
  refine ⟨incAttempt s.eng.attempt, fun h => incAttempt_toNat (by omega), fun hends => ?_,
    fun hleft htps => ?_⟩
  · rw [hexec, retire_of_ends (.inr hends)]
  · exact hexec.trans
      ((retire_of_not_ends Bool.false_ne_true hleft).trans (beginAttempt_of_tps htps))

/-- Settles O49: only the end of a retirement leads a busy engine to Idle, and only a command writes
`MAXR`. -/
theorem busyEndsOnlyByRetirement : Obligations.BusyEndsOnlyByRetirement := by
  intro s t hrst hbusy h
  have hto := step_stepTo h
  generalize t.eng = e' at hto
  cases hto with
  | reset hr => simp [hrst] at hr
  | stayIdle hst => exact absurd hst hbusy
  | accept hst => exact absurd hst hbusy
  | finish hrd hend => exact ⟨rfl, fun _ => ⟨hrd.st_eq, rfl, hend⟩⟩
  | keepHolding => exact ⟨rfl, fun hidle => absurd hidle hbusy⟩
  | watch => exact ⟨rfl, fun hidle => absurd hidle hbusy⟩
  | edge hst =>
    refine ⟨rfl, fun hidle => ?_⟩
    by_cases hlast : s.eng.edgeCnt.toNat = 40 <;> simp [hlast, hst] at hidle
  | _ => exact ⟨rfl, by simp⟩

end Sys2Proof.Machine
end

section
/-! SUPPORT. The frame decoder: the combinational rows over the natural numbers (R100 to R103,
R105), and the run of CAPTURE over the polls of one attempt (R104). -/

namespace Sys2Proof.Machine

/-! ## The combinational rows -/

/-- DURATION over the natural numbers (R101). -/
theorem duration_toNat (now prev : Word64) :
    (duration now prev).toNat = (now.toNat + 2 ^ 64 - prev.toNat) % 2 ^ 64 := by
  rw [duration, BitVec.toNat_sub]
  omega

/-- DECODEBIT over the natural numbers (R102). -/
theorem decodeBit_iff (d threshold : Word64) :
    decodeBit d threshold = true ↔ threshold.toNat < d.toNat := by
  rw [decodeBit, decide_eq_true_iff, gt_iff_lt, BitVec.lt_def]

/-- SHIFTIN read back at any position, for the edge numbers of R103. -/
theorem shiftIn_getLsbD {i : BitVec 6} (h1 : 1 ≤ i.toNat) (h40 : i.toNat ≤ 40) (frame : FrameWord)
    (b : Bool) (p : Nat) :
    (shiftIn frame i b).getLsbD p = if p = 40 - i.toNat then b else frame.getLsbD p := by
  rw [shiftIn_of_ok h1 h40, setFrameBit_getLsbD _ _ (by omega)]

/-! ## The polls of one attempt -/

theorem captureAll_cons_of_stays {s t : State} {x : Input}
    (h : exec .capture { s with inp := x } = .next t) (hst : t.eng.st = .capturingBits)
    (xs : List Input) : captureAll (x :: xs) s = captureAll xs t := by
  simp only [captureAll, h, hst, if_true]

theorem captureAll_cons_of_leaves {s t : State} {x : Input}
    (h : exec .capture { s with inp := x } = .next t) (hst : t.eng.st ≠ .capturingBits)
    (xs : List Input) : captureAll (x :: xs) s = .next t := by
  simp only [captureAll, h, if_neg hst]

theorem edgeTimes_cons_of_falling {e : Engine} {x : Input} (h : e.FallingSeen x) (xs : List Input) :
    edgeTimes e.prevLevel (x :: xs) = x.sample.ticks :: edgeTimes .low xs := by
  rw [edgeTimes, if_pos h, h.2]

theorem edgeTimes_cons_of_not_falling {e : Engine} {x : Input} (h : ¬e.FallingSeen x)
    (xs : List Input) : edgeTimes e.prevLevel (x :: xs) = edgeTimes x.sample.lvl xs := by
  rw [edgeTimes, if_neg h]

/-- Before the first edge the account is empty. -/
theorem Engine.tracks_nil {e : Engine} (hcnt : e.edgeCnt = 0#6) (hframe : e.frame = 0#40) :
    e.Tracks [] := by
  refine ⟨by simp [hcnt], fun _ h => (Option.some_ne_none _ h.symm).elim, fun i _ _ => ?_⟩
  simp [hframe]

/-- One poll in time with a falling edge. -/
theorem execCapture_of_falling {s : State} {x : Input} (hin : x.sample.millis ≤ s.eng.deadline)
    (hfall : s.eng.FallingSeen x) :
    exec .capture { s with inp := x } =
      .next { s with
        inp := x
        eng := { s.eng.fallingEdge x.sample.ticks with prevLevel := .low } } := by
  rw [← Engine.captureLevel_of_falling hfall]
  exact execCapture_of_inTime hin

/-- One poll in time without a falling edge. -/
theorem execCapture_of_not_falling {s : State} {x : Input} (hin : x.sample.millis ≤ s.eng.deadline)
    (hno : ¬s.eng.FallingSeen x) :
    exec .capture { s with inp := x } =
      .next { s with inp := x, eng := { s.eng with prevLevel := x.sample.lvl } } := by
  rw [← Engine.captureLevel_of_not_falling hno]
  exact execCapture_of_inTime hin

/-- From an account `ts` of at most 40 edges, polls in time that bring the 41st end in Success with
the first 41 edges accounted for. -/
theorem captureAll_of_tracks (xs : List Input) {s : State} {ts : List Word64}
    (hst : s.eng.st = .capturingBits) (htracks : s.eng.Tracks ts) (hle : ts.length ≤ 40)
    (hin : ∀ x ∈ xs, x.sample.millis ≤ s.eng.deadline)
    (henough : 41 ≤ (ts ++ edgeTimes s.eng.prevLevel xs).length) :
    ∃ t, captureAll xs s = .next t ∧ t.eng.st = .success ∧ t.eng.threshold = s.eng.threshold ∧
      t.eng.Tracks ((ts ++ edgeTimes s.eng.prevLevel xs).take 41) := by
  induction xs generalizing s ts with
  | nil =>
    rw [edgeTimes, List.append_nil] at henough
    omega
  | cons x xs ih =>
    obtain ⟨hx, hxs⟩ := List.forall_mem_cons.1 hin
    by_cases hfall : s.eng.FallingSeen x
    · have hexec := execCapture_of_falling hx hfall
      have hcnt : s.eng.edgeCnt.toNat = ts.length := htracks.1
      have htracks' := htracks.fallingEdge x.sample.ticks hle
      rw [edgeTimes_cons_of_falling hfall, List.append_cons] at henough ⊢
      rcases Nat.eq_or_lt_of_le hle with hlast | hmore
      · refine ⟨_, captureAll_cons_of_leaves hexec (by simp [hcnt, hlast]) xs,
          by simp [hcnt, hlast], rfl, ?_⟩
        rwa [List.take_left' (by simp [hlast])]
      · have hst' : (s.eng.fallingEdge x.sample.ticks).st = .capturingBits := by
          simp [hcnt, hst, hmore.ne]
        rw [captureAll_cons_of_stays hexec hst']
        exact ih hst' htracks' (by simpa using hmore) hxs henough
    · rw [edgeTimes_cons_of_not_falling hfall] at henough ⊢
      rw [captureAll_cons_of_stays (execCapture_of_not_falling hx hfall) hst]
      exact ih hst htracks hle hxs henough

/-- What an account of the first 41 of the edges `ts` says: every duration has its bit (R104). -/
theorem Engine.Tracks.frame_bit_of_take {e : Engine} {ts : List Word64} (h : e.Tracks (ts.take 41))
    (henough : 41 ≤ ts.length) {i : Nat} (h1 : 1 ≤ i) (h40 : i ≤ 40) :
    e.frame.getLsbD (40 - i) = decide (ts.getD i 0#64 - ts.getD (i - 1) 0#64 > e.threshold) := by
  obtain ⟨-, -, hbits⟩ := h
  have htake : ∀ j < 41, (ts.take 41).getD j 0#64 = ts.getD j 0#64 := fun j hj => by
    simp only [List.getD_eq_getElem?_getD, List.getElem?_take_of_lt hj]
  have hlt : i < (ts.take 41).length := by
    rw [List.length_take_of_le henough]
    omega
  rw [hbits i h1 h40, decide_eq_true hlt, Bool.true_and, htake i (by omega),
    htake (i - 1) (by omega)]

/-! ## The obligations -/

/-- Settles O29: the run keeps its account of edges up to the 41st, where it leaves the state. -/
theorem capturedFrameIsTheFortyDurations : Obligations.CapturedFrameIsTheFortyDurations := by
  intro s xs hst hcnt hframe hin henough
  obtain ⟨t, hrun, hsuccess, hthreshold, htracks⟩ :=
    captureAll_of_tracks xs hst (Engine.tracks_nil hcnt hframe) (Nat.zero_le 40) hin henough
  refine ⟨t, hrun, hsuccess, htracks.1.trans (List.length_take_of_le henough), hthreshold,
    fun i h1 h40 => ?_⟩
  rw [← hthreshold]
  exact htracks.frame_bit_of_take henough h1 h40

/-- Settles O24: the quotient is below its bound because the frequency has 64 bits. -/
theorem threshIsTheRoundedQuotient : Obligations.ThreshIsTheRoundedQuotient := by
  refine fun tps s => ⟨thresh tps, rfl, thresh_toNat tps, ?_⟩
  have := tps.isLt
  rw [thresh_toNat]
  omega

/-- Settles O25: both thresholds as quotients, the doubled frequency without a wrap. -/
theorem thresholdDoublesWithinOneTick : Obligations.ThresholdDoublesWithinOneTick := by
  intro f hfit
  have hdouble : (2#64 * f).toNat = 2 * f.toNat := by
    rw [BitVec.toNat_mul]
    exact Nat.mod_eq_of_lt hfit
  rw [thresh_toNat, thresh_toNat, hdouble]
  omega

/-- Settles O28: the result of SHIFTIN, read bit by bit. -/
theorem shiftInPlacesOneBit : Obligations.ShiftInPlacesOneBit := by
  refine fun frame i b s h1 h40 => ⟨shiftIn frame i b, rfl, ?_, fun p hp => ?_⟩
  · rw [shiftIn_getLsbD h1 h40, if_pos rfl]
  · rw [shiftIn_getLsbD h1 h40, if_neg hp]

/-- Settles O26: an advance below 2^64 is its own residue. -/
theorem durationIsTheModularDifference : Obligations.DurationIsTheModularDifference := by
  refine fun now prev s => ⟨duration now prev, rfl, duration_toNat now prev, fun k hk hnow => ?_⟩
  have := prev.isLt
  rw [duration_toNat, hnow]
  omega

/-- Settles O27: equal numbers are not strictly ordered. -/
theorem decodeBitIsStrictlyAbove : Obligations.DecodeBitIsStrictlyAbove := by
  refine fun d threshold s => ⟨decodeBit d threshold, rfl, decodeBit_iff d threshold, ?_⟩
  rintro rfl
  exact decide_eq_false (BitVec.lt_irrefl d)

end Sys2Proof.Machine
end

section
/-! SUPPORT. The checksum validator and the unit converter (R110 to R113, R115): the checksum as a
sum of bytes that wraps, which a change of exactly one byte always alters and a compensated change
of two never does, and the bytes a flipped frame bit leaves as they were. -/

namespace Sys2Proof.Machine

/-! ## The bytes of a frame -/

theorem frameByte_lt (f : FrameWord) (k : Nat) : frameByte f k < 256 :=
  Nat.mod_lt _ (by decide)

theorem frameByte_testBit (f : FrameWord) (k i : Nat) :
    (frameByte f k).testBit i = (decide (i < 8) && f.getLsbD (8 * k + i)) := by
  rw [frameByte, show 256 = 2 ^ 8 from rfl, Nat.testBit_mod_two_pow, Nat.testBit_div_two_pow,
    Nat.add_comm, BitVec.getLsbD]

/-- Flipping the bit at position `p` flips that bit alone. -/
theorem flipBit_getLsbD (f : FrameWord) {p : Nat} (hp : p < 40) (q : Nat) :
    (f ^^^ (1#40 <<< p)).getLsbD q = (f.getLsbD q ^^ decide (p = q)) := by
  rw [BitVec.getLsbD_xor, ← BitVec.twoPow_eq, BitVec.getLsbD_twoPow, decide_eq_true hp,
    Bool.true_and]

theorem frameByte_flipBit_of_ne (f : FrameWord) {p k : Nat} (hp : p < 40) (hk : k ≠ p / 8) :
    frameByte (f ^^^ (1#40 <<< p)) k = frameByte f k := by
  refine Nat.eq_of_testBit_eq fun i => ?_
  rw [frameByte_testBit, frameByte_testBit, flipBit_getLsbD f hp]
  by_cases hi : i < 8
  · rw [decide_eq_false (show p ≠ 8 * k + i by omega), Bool.xor_false]
  · rw [decide_eq_false hi, Bool.false_and, Bool.false_and]

theorem frameByte_flipBit_ne (f : FrameWord) {p : Nat} (hp : p < 40) :
    frameByte (f ^^^ (1#40 <<< p)) (p / 8) ≠ frameByte f (p / 8) := by
  intro heq
  have hbit := congrArg (Nat.testBit · (p % 8)) heq
  simp [frameByte_testBit, flipBit_getLsbD f hp, Nat.div_add_mod, Nat.mod_lt] at hbit

/-- The number of a frame from its five fields, each at its weight (R63). -/
theorem frame_toNat_eq_fields (frame : FrameWord) :
    frame.toNat = (fields frame).humidityInt.toNat * 2 ^ 32 +
      (fields frame).humidityFrac.toNat * 2 ^ 24 + (fields frame).temperatureInt.toNat * 2 ^ 16 +
      (fields frame).temperatureFrac.toNat * 2 ^ 8 + (fields frame).checksum.toNat := by
  rw [← frameOfFields_toNat]
  exact congrArg BitVec.toNat (frameOfFields_fields frame).symm

/-! ## The checksum as a sum of bytes -/

/-- The exact sum fits in the ten bits of the checksum operand (R69b). -/
theorem byteSum_toNat (hI hF tI tF : Byte) :
    (byteSum hI hF tI tF).toNat = hI.toNat + hF.toNat + tI.toNat + tF.toNat := by
  have := hI.isLt
  have := hF.isLt
  have := tI.isLt
  have := tF.isLt
  simp only [byteSum, BitVec.toNat_add, BitVec.toNat_setWidth]
  omega

/-- CHKSUM compares with the wrapping sum of the four data bytes (R111). -/
theorem chksum_iff_eq_sum (b : Fin 4 → Byte) (ck : Byte) :
    chksum (b 0) (b 1) (b 2) (b 3) ck = true ↔ ck = ∑ k, b k := by
  simp only [chksum_iff, Fin.sum_univ_four, ← BitVec.toNat_inj, BitVec.toNat_add, Nat.mod_add_mod]

/-- Two frames that differ in exactly one byte are not both valid: no other byte makes up for the
change. -/
theorem not_frameValid_of_one_byte_changed {f f' : FrameWord} {k : Nat} (hk : k < 5)
    (hsame : ∀ j, j ≠ k → frameByte f' j = frameByte f j)
    (hchanged : frameByte f' k ≠ frameByte f k) (hvalid : FrameValid f) : ¬FrameValid f' := by
  intro hvalid'
  have := frameByte_lt f k
  have := frameByte_lt f' k
  have h0 := hsame 0
  have h1 := hsame 1
  have h2 := hsame 2
  have h3 := hsame 3
  have h4 := hsame 4
  interval_cases k <;> omega

/-! ## Errors that compensate each other -/

/-- The data bytes with one added to byte `i` and one taken from byte `j` (R117). -/
def compensate (b : Fin 4 → Byte) (i j : Fin 4) : Fin 4 → Byte :=
  b + Pi.single i 1#8 - Pi.single j 1#8

section
variable {i j : Fin 4} (b : Fin 4 → Byte)

theorem compensate_left (hij : i ≠ j) : compensate b i j i = b i + 1#8 := by
  simp [compensate, hij]

theorem compensate_right (hij : i ≠ j) : compensate b i j j = b j - 1#8 := by
  simp [compensate, hij.symm]

theorem compensate_of_ne {k : Fin 4} (hi : k ≠ i) (hj : k ≠ j) : compensate b i j k = b k := by
  simp [compensate, hi, hj]

/-- The wrapping sum does not see the change. -/
theorem sum_compensate : ∑ k, compensate b i j k = ∑ k, b k := by
  simp [compensate, Finset.sum_add_distrib]

/-- Where neither byte wraps, one is added and one taken over the natural numbers. -/
theorem compensate_toNat (hij : i ≠ j) (hi : b i ≠ 255#8) (hj : b j ≠ 0#8) (k : Fin 4) :
    (compensate b i j k).toNat + (if k = j then 1 else 0) =
      (b k).toNat + (if k = i then 1 else 0) := by
  rcases eq_or_ne k i with rfl | hki
  · rw [compensate_left b hij, if_neg hij, if_pos rfl]
    bv_omega
  · rcases eq_or_ne k j with rfl | hkj
    · rw [compensate_right b hij, if_pos rfl, if_neg hki]
      bv_omega
    · rw [compensate_of_ne b hki hkj, if_neg hki, if_neg hkj]

/-- Nor does the exact sum where neither byte wraps. -/
theorem sum_compensate_toNat (hij : i ≠ j) (hi : b i ≠ 255#8) (hj : b j ≠ 0#8) :
    ∑ k, (compensate b i j k).toNat = ∑ k, (b k).toNat := by
  have hsum := Finset.sum_congr rfl fun k (_ : k ∈ Finset.univ) => compensate_toNat b hij hi hj k
  simpa [Finset.sum_add_distrib] using hsum

end

/-! ## The obligations -/

/-- Settles O33: the flip changes exactly one of the five bytes. -/
theorem checksumCatchesSingleBitErrors : Obligations.ChecksumCatchesSingleBitErrors := by
  intro frame p hp hvalid
  rw [readingOfFrame_isValid_iff] at hvalid
  rw [← Bool.not_eq_true, readingOfFrame_isValid_iff]
  exact not_frameValid_of_one_byte_changed (by omega)
    (fun j hj => frameByte_flipBit_of_ne frame hp hj) (frameByte_flipBit_ne frame hp) hvalid

/-- Settles O34: the compensated bytes have the same sum, so CHKSUM compares with the same byte. -/
theorem checksumMissesCompensatingErrors : Obligations.ChecksumMissesCompensatingErrors := by
  intro b ck i j s hij
  have hverdict : chksum (compensate b i j 0) (compensate b i j 1) (compensate b i j 2)
      (compensate b i j 3) ck = chksum (b 0) (b 1) (b 2) (b 3) ck := by
    rw [Bool.eq_iff_iff, chksum_iff_eq_sum, chksum_iff_eq_sum, sum_compensate]
  refine ⟨compensate b i j, chksum (b 0) (b 1) (b 2) (b 3) ck, compensate_left b hij,
    compensate_right b hij, fun k => compensate_of_ne b, ?_, ?_, rfl, ?_, chksum_iff .., ?_⟩
  · rw [compensate_left b hij]
    simp
  · rw [compensate_right b hij]
    simp
  · rw [← hverdict]
    rfl
  · intro hi hj
    rw [byteSum_toNat, ← Fin.sum_univ_four fun k => (compensate b i j k).toNat,
      sum_compensate_toNat b hij hi hj, Fin.sum_univ_four]

/-- Settles O32: the row shows the bit of CHKSUM, which compares with the sum mod 256. -/
theorem checksumAcceptsExactlyTheSum : Obligations.ChecksumAcceptsExactlyTheSum :=
  fun hI hF tI tF ck _ => ⟨chksum hI hF tI tF ck, rfl, chksum_iff hI hF tI tF ck⟩

/-- Settles O36: the record of a frame is the one of the rules; that of a timeout is a constant. -/
theorem readingRecordsFollowTheRules : Obligations.ReadingRecordsFollowTheRules := by
  refine ⟨fun frame s => ?_, fun s => rfl⟩
  change showResult s (.record (readingOfFrame frame)) = _
  rw [readingOfFrame_eq, showResult]

/-- Settles O31: each field is a byte of the frame's number, and the frame word of the fields is the
frame. -/
theorem fieldsSplitTheFrame : Obligations.FieldsSplitTheFrame := by
  intro frame s
  have hframe := frame.isLt
  have hbyte := extractLsb'_toNat_eq_frameByte frame
  refine ⟨fields frame, rfl, (hbyte 4).trans ?_, hbyte 3, hbyte 2, hbyte 1, (hbyte 0).trans ?_,
    (frame_toNat_eq_fields frame).trans (by ring)⟩
  · rw [frameByte]
    omega
  · rw [frameByte]
    omega

/-- Settles O35: the two values are computed without a wrap. -/
theorem convertGivesExactTenths : Obligations.ConvertGivesExactTenths :=
  fun hI hF tI tF _ => ⟨tenthsOf hI hF, tenthsOf tI tF, rfl, tenthsOf_toNat hI hF,
    tenthsOf_toNat tI tF, tenthsOf_le hI hF, tenthsOf_le tI tF⟩

end Sys2Proof.Machine
end

section
/-! SUPPORT. The retry policy (R120 to R125): the refused commands, the steps that stay idle, the
two ways a retirement goes on, and the retirements of one command as an induction over its
attempts. -/

namespace Sys2Proof.Machine

/-! ## The refused commands -/

/-- Outside Idle a command is refused whatever its operand is (R122 item 2). -/
theorem getReading_of_busy {s : State} (hst : s.eng.st ≠ .idle) (n : Word32) :
    getReading n s = .refused .commandWhileBusy :=
  if_pos ((Engine.busy_iff _).2 hst)

/-! ## Staying idle -/

/-- Without a command an idle engine only takes the next inputs (R120). -/
theorem step_of_idle_no_start {s : State} (hst : s.eng.st = .idle) (hstart : s.inp.start = false)
    (hrst : s.inp.rst = false) : step s = .next s.advance := by
  rw [step_eq_finishStep hrst fun _ => hst, fetch_of_idle_no_start hst hstart]
  rfl

/-- The inputs fixed beforehand are the first ones presented after the step. -/
theorem State.script_prefix_advance (s : State) :
    s.script <+: s.advance.inp :: s.advance.script := by
  by_cases hscript : s.script = []
  · rw [hscript]
    exact List.nil_prefix
  · rw [State.advance_inputs_of_ne_nil hscript]

/-- An idle engine keeps every register through inputs that present neither `start` nor `rst`. -/
theorem run_of_idle {s : State} {xs : List Input} (hst : s.eng.st = .idle)
    (hinp : xs <+: s.inp :: s.script) (hquiet : ∀ x ∈ xs, x.start = false ∧ x.rst = false) :
    ∃ t, core.run xs.length s = .next t ∧ t.eng = s.eng := by
  induction xs generalizing s with
  | nil => exact ⟨s, run_zero s, rfl⟩
  | cons x xs ih =>
    obtain ⟨rfl, hxs⟩ := List.cons_prefix_cons.1 hinp
    obtain ⟨⟨hstart, hrst⟩, hrest⟩ := List.forall_mem_cons.1 hquiet
    rw [List.length_cons, run_succ_of_next (step_of_idle_no_start hst hstart hrst)]
    exact ih (s := s.advance) hst (hxs.trans s.script_prefix_advance) hrest

/-! ## A retirement that is followed by a retry -/

/-- With a clock, a retirement that does not end the command begins the next attempt (R123). -/
theorem retire_of_retries {rd : ReadingRecord} {s : State} (hinvalid : rd.isValid = false)
    (hleft : s.eng.attempt.toNat + 1 ≠ s.eng.maxr.toNat) (htps : s.inp.sample.tps ≠ 0#64) :
    retire rd s =
      .next { s with eng := (s.eng.retired rd (incAttempt s.eng.attempt)).begun s.inp } :=
  (retire_of_not_ends (by simp [hinvalid]) hleft).trans (beginAttempt_of_tps htps)

/-! ## The attempts of one command -/

/-- Inside its range the attempt's index is `ATTEMPT` + 1 as a number. -/
theorem incAttempt_eq_ofNat {a : Word32} (h : a.toNat < 2 ^ 32 - 1) :
    incAttempt a = BitVec.ofNat 32 (a.toNat + 1) := by
  rw [← incAttempt_toNat h, BitVec.ofNat_toNat, BitVec.setWidth_eq]

/-- An attempt index below the budget is inside the range of ATTEMPT. -/
theorem Engine.attempt_lt_of_lt_maxr {e : Engine} (h : e.attempt.toNat < e.maxr.toNat) :
    e.attempt.toNat < 2 ^ 32 - 1 := by
  have := e.maxr.isLt
  omega

theorem retireAll_cons_of_done {s t : State} {p : Input × ReadingRecord}
    (h : exec (.retire p.2) { s with inp := p.1 } = .next t) (hdone : t.eng.done = true)
    (ps : List (Input × ReadingRecord)) : retireAll (p :: ps) s = .next t := by
  simp only [retireAll, h, hdone, if_true]

theorem retireAll_cons_of_not_done {s t : State} {p : Input × ReadingRecord}
    (h : exec (.retire p.2) { s with inp := p.1 } = .next t) (hdone : t.eng.done = false)
    (ps : List (Input × ReadingRecord)) : retireAll (p :: ps) s = retireAll ps t := by
  simp only [retireAll, h, hdone, Bool.false_eq_true, if_false]

/-- From any attempt on, the command returns at the first record that ends it, with the index of the
attempt that retired it (R124). -/
theorem retireAll_returns {ps : List (Input × ReadingRecord)} {k : Nat} {x : Input}
    {rd : ReadingRecord} {s : State} (hdone : s.eng.done = false) (hget : ps[k]? = some (x, rd))
    (hfailed : ∀ j < k, ∀ p, ps[j]? = some p → p.2.isValid = false ∧ p.1.sample.tps ≠ 0#64)
    (hbudget : s.eng.attempt.toNat + k + 1 ≤ s.eng.maxr.toNat)
    (hends : rd.isValid = true ∨ s.eng.attempt.toNat + k + 1 = s.eng.maxr.toNat) :
    ∃ t e, retireAll ps s = .next t ∧
      t.eng = Engine.returned e rd (BitVec.ofNat 32 (s.eng.attempt.toNat + k + 1)) := by
  induction ps generalizing k s with
  | nil => simp at hget
  | cons p ps ih =>
    cases k with
    | zero =>
      obtain rfl := Option.some.inj hget
      have hret := retire_of_ends (s := { s with inp := x }) hends
      refine ⟨_, s.eng, retireAll_cons_of_done (p := (x, rd)) hret rfl ps, ?_⟩
      rw [incAttempt_eq_ofNat (Engine.attempt_lt_of_lt_maxr hbudget), Nat.add_zero]
    | succ k =>
      obtain ⟨hinvalid, htps⟩ := hfailed 0 k.succ_pos p rfl
      have hleft : s.eng.attempt.toNat + 1 ≠ s.eng.maxr.toNat := by omega
      have hret := retire_of_retries (s := { s with inp := p.1 }) hinvalid hleft htps
      rw [retireAll_cons_of_not_done hret hdone]
      have hnext : s.eng.attempt.toNat + (k + 1) = (incAttempt s.eng.attempt).toNat + k := by
        rw [incAttempt_toNat (Engine.attempt_lt_of_lt_maxr (by omega)), Nat.add_right_comm,
          Nat.add_assoc]
      rw [hnext] at hbudget hends ⊢
      exact ih hdone hget (fun j hj => hfailed (j + 1) (Nat.succ_lt_succ hj)) hbudget hends

/-! ## The obligations -/

/-- Settles O44: the writes of R123, then the end of the command or BEGIN_ATTEMPT. -/
theorem retireReturnsOrRetries : Obligations.RetireReturnsOrRetries :=
  fun _ s => ⟨incAttempt s.eng.attempt, fun h => incAttempt_toNat (by omega), retire_of_ends,
    retire_of_retries⟩

/-- Settles O45: the attempts are counted from 0, so record number `k` is retired by attempt `k`. -/
theorem commandReturnsTheFirstValidRecord : Obligations.CommandReturnsTheFirstValidRecord := by
  intro s ps k x rd hattempt hdone hget hfailed hbudget hends
  have hfrom : s.eng.attempt.toNat + k + 1 = k + 1 := by simp [hattempt]
  rw [← hfrom] at hbudget hends
  obtain ⟨t, e, hrun, ht⟩ := retireAll_returns hdone hget hfailed hbudget hends
  rw [hfrom] at hbudget ht
  have hfit : k + 1 < 2 ^ 32 := hbudget.trans_lt s.eng.maxr.isLt
  refine ⟨t, hrun, ?_⟩
  rw [ht]
  exact ⟨rfl, rfl, rfl, Nat.mod_eq_of_lt hfit⟩

/-- Settles O50, by induction over the inputs. -/
theorem resultStaysUntilTheNextCommand : Obligations.ResultStaysUntilTheNextCommand :=
  fun _ xs rest hst hinp hquiet => run_of_idle hst (hinp ▸ List.prefix_append xs rest) hquiet

/-- Settles O53: BEGIN_ATTEMPT, and after it the release, write these registers from the inputs
alone. -/
theorem attemptsAreIndependent : Obligations.AttemptsAreIndependent := by
  intro s u y hinp htps
  refine ⟨_, _, beginAttempt_of_tps htps, beginAttempt_of_tps (hinp ▸ htps), ?_⟩
  rw [hinp]
  exact ⟨rfl, rfl, rfl, rfl, rfl, rfl, rfl, rfl, fun hlate =>
    ⟨_, _, execHold_of_late hlate, execHold_of_late hlate, rfl, rfl, rfl⟩⟩

/-- Settles O38: IDLE writes nothing, and the step only takes the next inputs. -/
theorem idleChangesNothing : Obligations.IdleChangesNothing :=
  ⟨fun _ => rfl, fun s hrst hstart hst =>
    ⟨s.advance, step_of_idle_no_start hst hstart hrst, rfl, rfl⟩⟩

/-- Settles O39: GETREADING's operand is `max_retries` of its own step. -/
theorem getReadingAcceptsACommand : Obligations.GetReadingAcceptsACommand :=
  fun _ hst htps hn => getReading_of_idle hst htps hn

/-- Settles O42: in Idle GETREADING refuses the budget, elsewhere the step refuses the strobe. -/
theorem refusedCommands : Obligations.RefusedCommands := by
  refine fun s hrst hstart => ⟨fun hst hn => ?_, step_of_strobe_while_busy hrst hstart⟩
  have hexec : exec s.fetch s = .refused .budgetNotPositive := by
    rw [fetch_of_idle_start hst hstart]
    exact getReading_of_budget_not_positive hst hn
  rw [step_eq_finishStep hrst fun _ => hst, hexec, finishStep]

/-- Settles O43: the three spellings are GETREADING with an operand of their own. -/
theorem refusedCommandWords : Obligations.RefusedCommandWords :=
  ⟨fun _ => getReading_of_budget_not_positive, fun _ _ => getReading_of_budget_not_positive,
    fun s n hst => ⟨getReading_of_busy hst n, getReading_of_busy hst s.inp.maxRetries,
      getReading_of_busy hst defaultMaxRetries⟩⟩

end Sys2Proof.Machine
end

section
/-! SUPPORT. Failures as values: the deadline that expires in a step (R143), and the outcome code a
retiring step shows (R136). -/

namespace Sys2Proof.Machine

/-! ## The deadline in a step -/

/-- Past the deadline a step of the response or the capture window times out (R84, R85, R143). -/
theorem step_of_timeOut {s : State}
    (hst : s.eng.st = .awaitingResponse ∨ s.eng.st = .capturingBits) (hstart : s.inp.start = false)
    (hrst : s.inp.rst = false) (hlate : s.inp.sample.millis > s.eng.deadline) :
    step s = .next ({ s with eng := { s.eng with st := .timedOut } } : State).advance := by
  rw [step_eq_finishStep hrst (by simp [hstart]), fetch_eq]
  obtain hst | hst := hst <;> rw [hst]
  · exact congrArg finishStep (execAwait_of_late hlate)
  · exact congrArg finishStep (execCapture_of_late hlate)

/-! ## The outcome of a retiring step -/

/-- The engine shows the record `rd` in the Reading registers (R123, R136). -/
def Engine.Shows (e : Engine) (rd : ReadingRecord) : Prop :=
  e.outcomeCode = (rd.timedOut, rd.isValid) ∧ e.rdHumTenths = rd.humTenths ∧
    e.rdTempTenths = rd.tempTenths

/-- A step that retires an attempt shows its record, whether the command ends or a retry begins. -/
theorem step_shows_of_retires {s t : State} {rd : ReadingRecord} (hrst : s.inp.rst = false)
    (hrd : s.eng.Retires rd) (h : step s = .next t) : t.eng.Shows rd := by
  obtain ⟨hr, -⟩ | ⟨-, -, u, hexec, rfl⟩ := step_next h
  · simp [hrst] at hr
  · rw [exec_fetch_of_retires hrd] at hexec
    obtain ⟨-, rfl⟩ | ⟨-, -, -, rfl⟩ := retire_next hexec
    · exact ⟨rfl, rfl, rfl⟩
    · exact ⟨rfl, rfl, rfl⟩

/-! ## The obligations -/

/-- Settles O22: the deadline is the first check of all three waiting operations. -/
theorem deadlineDecidesBeforeTheLevel : Obligations.DeadlineDecidesBeforeTheLevel :=
  fun _ hrst hstart hlate => ⟨fun hst => step_of_timeOut hst hstart hrst hlate,
    fun hst => ⟨_, step_of_release hst hstart hrst hlate, rfl⟩⟩

/-- Settles O55: the record shown is the frame's, by its validity, or the timeout's. -/
theorem retirementShowsOneOutcomeCode : Obligations.RetirementShowsOneOutcomeCode := by
  refine fun s t hrst h => ⟨fun hst => ?_, fun hst => step_shows_of_retires hrst (.timeout hst) h⟩
  have hshows := step_shows_of_retires hrst (.frame hst) h
  rw [readingOfFrame_eq, recordByRule] at hshows
  by_cases hvalid : FrameValid s.eng.frame
  · rw [if_pos hvalid] at hshows
    obtain ⟨hcode, -⟩ := hshows
    exact .inl ⟨hvalid, hcode⟩
  · rw [if_neg hvalid] at hshows
    exact .inr ⟨hvalid, hshows⟩

end Sys2Proof.Machine
end

section
/-! SUPPORT. The reset input (R160): it decides the step before a strobe or the operation is looked
at. -/

namespace Sys2Proof.Machine

/-- With `rst` asserted the step is the reset, followed by the next inputs (R160). -/
theorem step_of_rst {s : State} (hrst : s.inp.rst = true) :
    step s = .next s.resetEngine.advance := by
  simp only [step, State.preempt, hrst, if_true]

/-- Settles O9: the step is the reset, and presenting the next inputs leaves the engine alone. -/
theorem resetInputRestoresTheResetValues : Obligations.ResetInputRestoresTheResetValues :=
  fun _ hrst => ⟨_, step_of_rst hrst, rfl⟩

end Sys2Proof.Machine
end
